-- ==== Sys2Proof/Config.lean ====
section
/-! DEFINITION. The parameters of LINKENG (spec 00_scope.md R6): the fixed bounds, and the ones marked OPEN. -/

namespace Sys2Proof

/-- `P_JUMBO_ZERO`: what a V1 jumbo frame of length 0 does (42_decoder.md R164). -/
inductive JumboZero where
  | directChecksum
  | absorbOne
  | absorbForever
  deriving DecidableEq, Repr

/-- `P_MATCH`: one entry per frame, or every entry of the code (43_dispatcher.md R210, R211). -/
inductive MatchPolicy where
  | first
  | all
  deriving DecidableEq, Repr

/-- The OPEN parameters of 00_scope.md R6 that some rule reads. -/
structure Params where
  /-- `T_INIT` -/
  tInit : Nat
  /-- `CRCERR_W` -/
  crcerrW : Nat
  /-- `P_JUMBO_ZERO` -/
  jumboZero : JumboZero
  /-- `P_MATCH` -/
  matchPolicy : MatchPolicy
  deriving DecidableEq, Repr

/-- The parameters F10 BadParameter names (60_exceptions.md R253). -/
inductive ParamName where
  | tInit
  | crcerrW
  deriving DecidableEq, Repr

namespace Config

/-- `T_MIN` (00_scope.md R6). -/
abbrev tMin : Nat := 100

/-- `T_MAX` (00_scope.md R6). -/
abbrev tMax : Nat := 2000

/-- `V1_CODE_MAX` (00_scope.md R6). -/
abbrev v1CodeMax : Nat := 254

/-- `V1_PAYLOAD_MAX` (00_scope.md R6). -/
abbrev v1PayloadMax : Nat := 254

/-- `V2_PAYLOAD_MAX` (00_scope.md R6). -/
abbrev v2PayloadMax : Nat := 65535

/-- `JUMBO_SENTINEL` (00_scope.md R6). -/
abbrev jumboSentinel : BitVec 8 := 0xFF

/-- `TIME_UNIT`, the length of one time unit: OPEN, with no default (00_scope.md R6, 91_not_in_source.md N4). No rule
and no definition of the model reads it; it has no body, so nothing can be proved of its value (log entry 7). -/
opaque timeUnit : Nat

/-- The spec defaults of 00_scope.md R6, which the test vectors use. -/
def defaults : Params :=
  { tInit := 200, crcerrW := 32, jumboZero := .directChecksum, matchPolicy := .first }

end Config

/-- The parameter values R6 and R253 (F10) accept: `T_MIN <= T_INIT <= T_MAX` and `CRCERR_W` not 0. -/
abbrev Params.Valid (p : Params) : Prop :=
  Config.tMin ≤ p.tInit ∧ p.tInit ≤ Config.tMax ∧ p.crcerrW ≠ 0

end Sys2Proof
end

