-- ==== Sys2Proof/Word.lean ====
section
/-! DEFINITION. The bytes, half words and command words of LINKENG (spec 00_scope.md R6, 30_encoding.md R82 to R84). -/

namespace Sys2Proof

/-- `BYTE` of 00_scope.md R6: 8 bits. -/
abbrev Byte := BitVec 8

/-- `CODE_W` and `LEN_W` of 00_scope.md R6: 16 bits. -/
abbrev Half := BitVec 16

/-- One operand value of an event word before its type is checked (30_encoding.md R83): a number, or a sequence of
numbers that should be bytes. -/
inductive Operand where
  | num (v : Nat)
  | bytes (l : List Nat)
  deriving DecidableEq, Repr

/-- An event word: the 4-bit opcode `op[3:0]`, followed by the operand fields (30_encoding.md R82). -/
structure EventWord where
  op : BitVec 4
  operands : List Operand
  deriving DecidableEq, Repr

/-- The words of the two formats of the opcode table: an event word (30_encoding.md R82), or the 13-bit selector word
of the decoder (30_encoding.md R84). -/
inductive CommandWord where
  | event (w : EventWord)
  | sel (v : BitVec 13)
  deriving DecidableEq, Repr

end Sys2Proof
end

