-- ==== Sys2Proof/Syntax.lean ====
section
/-! DEFINITION. The instructions of LINKENG: one constructor per row of spec/opcode_table.json, the 15 EVENT rows
(30_encoding.md R82) and the 31 DECODER rows (30_encoding.md R84). An operand's type is its width (R83); a decoder
row carries the selector bits its mask leaves free. -/

namespace Sys2Proof

/-- Every row of the opcode table. -/
inductive Instr where
  /-- `FEED` (42_decoder.md R138) -/
  | feed (b : Byte)
  /-- `SEND` (43_dispatcher.md R201, R202) -/
  | send (code : Half) (payload : List Byte) (tag : Nat) (ioe : Bool)
  /-- `TIMER_FIRE` (43_dispatcher.md R205) -/
  | timerFire (tag : Nat)
  /-- `WRITE_DONE` (43_dispatcher.md R206) -/
  | writeDone (wid : Nat) (n : Nat)
  /-- `RESET` (70_reset_and_hazards.md R280) -/
  | reset
  /-- `LINK` (43_dispatcher.md R214) -/
  | link (c : Bool) (o : Bool)
  /-- `TICK` (43_dispatcher.md R215) -/
  | tick (t : Nat)
  /-- `CRC8_STEP` (40_checksum.md R101) -/
  | crc8Step (crc : Byte) (b : Byte)
  /-- `CRC8` (40_checksum.md R102) -/
  | crc8 (seed : Byte) (bs : List Byte)
  /-- `XOR8` (40_checksum.md R106) -/
  | xor8 (bs : List Byte)
  /-- `ENCODE_V1` (41_encoder.md R120) -/
  | encodeV1 (code : Byte) (payload : List Byte)
  /-- `ENCODE_V2` (41_encoder.md R121) -/
  | encodeV2 (code : Half) (payload : List Byte)
  /-- `ENCODE` (41_encoder.md R122) -/
  | encode (code : Half) (payload : List Byte)
  /-- `RESERVED_OP_13` (30_encoding.md R86) -/
  | reservedOp13
  /-- `RESERVED_OP_14_15` (30_encoding.md R86); `lo` is `op[0]` -/
  | reservedOp1415 (lo : BitVec 1)
  /-- `IDLE_SYNC` (42_decoder.md R140) -/
  | idleSync
  /-- `IDLE_DISCARD` (R141) -/
  | idleDiscard (b : Byte)
  /-- `PROTO_M` (R142) -/
  | protoM
  /-- `PROTO_X` (R143) -/
  | protoX
  /-- `PROTO_BAD` (R144) -/
  | protoBad (b : Byte)
  /-- `DIR_V1_FROM` (R145) -/
  | dirV1From
  /-- `DIR_V1_TO` (R146) -/
  | dirV1To
  /-- `DIR_V1_UNSUP` (R147) -/
  | dirV1Unsup
  /-- `DIR_V1_OTHER` (R148) -/
  | dirV1Other (b : Byte)
  /-- `DIR_V2_FROM` (R149) -/
  | dirV2From
  /-- `DIR_V2_TO` (R150) -/
  | dirV2To
  /-- `DIR_V2_UNSUP` (R151) -/
  | dirV2Unsup
  /-- `DIR_V2_OTHER` (R152) -/
  | dirV2Other (b : Byte)
  /-- `FLAG_V2` (R155) -/
  | flagV2 (b : Byte)
  /-- `LEN_V1_JUMBO` (R154) -/
  | lenV1Jumbo
  /-- `LEN_V1` (R153) -/
  | lenV1 (b : Byte)
  /-- `JLEN_LO` (R158) -/
  | jlenLo (b : Byte)
  /-- `JLEN_HI` (R159) -/
  | jlenHi (b : Byte)
  /-- `LEN_V2_LO` (R162) -/
  | lenV2Lo (b : Byte)
  /-- `LEN_V2_HI` (R163) -/
  | lenV2Hi (b : Byte)
  /-- `CODE_V1` (R156) -/
  | codeV1 (b : Byte)
  /-- `CODE_JUMBO_V1` (R157) -/
  | codeJumboV1 (b : Byte)
  /-- `CODE_V2_LO` (R160) -/
  | codeV2Lo (b : Byte)
  /-- `CODE_V2_HI` (R161) -/
  | codeV2Hi (b : Byte)
  /-- `PAYLOAD_V1` (R166) -/
  | payloadV1 (b : Byte)
  /-- `PAYLOAD_V2` (R167) -/
  | payloadV2 (b : Byte)
  /-- `CHECKSUM_V1` (R168) -/
  | checksumV1 (b : Byte)
  /-- `CHECKSUM_V2` (R169) -/
  | checksumV2 (b : Byte)
  /-- `BAD_STATE_18_19` (30_encoding.md R88); `lo` is `sel[8]` -/
  | badState1819 (lo : BitVec 1) (b : Byte)
  /-- `BAD_STATE_20_23` (R88); `lo` is `sel[9:8]` -/
  | badState2023 (lo : BitVec 2) (b : Byte)
  /-- `BAD_STATE_24_31` (R88); `lo` is `sel[10:8]` -/
  | badState2431 (lo : BitVec 3) (b : Byte)
  deriving DecidableEq, Repr

end Sys2Proof
end

