-- ==== Sys2Proof/WellFormed.lean ====
section
/-! DEFINITION. Which instructions are well formed. The operand widths of R83 are in the types; what remains is that a
decoder row for "any other byte" does not carry a byte that an earlier row of its state takes (30_encoding.md R84). -/

namespace Sys2Proof

/-- The bytes an "any other byte" row leaves to the earlier rows of the same state (30_encoding.md R84 and R85). -/
def Instr.takenBefore : Instr → List Byte
  | .idleDiscard _ => [0x24]
  | .protoBad _ => [0x4D, 0x58]
  | .dirV1Other _ => [0x3E, 0x3C, 0x21]
  | .dirV2Other _ => [0x3E, 0x3C, 0x21]
  | .lenV1 _ => [0xFF]
  | _ => []

/-- The byte a decoder row's free selector bits carry, where the row has one. -/
def Instr.freeByte : Instr → Option Byte
  | .idleDiscard b | .protoBad b | .dirV1Other b | .dirV2Other b | .lenV1 b => some b
  | _ => none

/-- An instruction is well formed when its free byte is left to it by the earlier rows of its state. -/
def Instr.wellFormed (i : Instr) : Bool :=
  match i.freeByte with
  | some b => decide (b ∉ i.takenBefore)
  | none => true

end Sys2Proof
end

