-- ==== Sys2Proof/Decode.lean ====
section
/-! DEFINITION. Decoding and encoding of the two word formats: event words (30_encoding.md R82, R83, R86) and decoder
selector words (R84, R88), with the state numbers of 10_state.md R21. -/

namespace Sys2Proof

/-- The 5-bit decoder state (10_state.md R21). -/
abbrev DecState := BitVec 5

/-! The eighteen legal states and their numbers (10_state.md R21). -/

abbrev DecState.idle : DecState := 0#5
abbrev DecState.protoIdentifier : DecState := 1#5
abbrev DecState.directionV1 : DecState := 2#5
abbrev DecState.directionV2 : DecState := 3#5
abbrev DecState.flagV2 : DecState := 4#5
abbrev DecState.payloadLengthV1 : DecState := 5#5
abbrev DecState.payloadLengthJumboLow : DecState := 6#5
abbrev DecState.payloadLengthJumboHigh : DecState := 7#5
abbrev DecState.payloadLengthV2Low : DecState := 8#5
abbrev DecState.payloadLengthV2High : DecState := 9#5
abbrev DecState.codeV1 : DecState := 10#5
abbrev DecState.codeJumboV1 : DecState := 11#5
abbrev DecState.codeV2Low : DecState := 12#5
abbrev DecState.codeV2High : DecState := 13#5
abbrev DecState.payloadV1 : DecState := 14#5
abbrev DecState.payloadV2 : DecState := 15#5
abbrev DecState.checksumV1 : DecState := 16#5
abbrev DecState.checksumV2 : DecState := 17#5

/-- Why a word is rejected before any instruction exists. -/
inductive Reject where
  /-- F9 BadOperand: an operand outside its type (30_encoding.md R83). -/
  | badOperand (v : Operand)
  /-- The model's own: the word ends before an operand R82 gives its opcode (log entry 5). -/
  | missingOperand (op : BitVec 4)
  deriving DecidableEq, Repr

/-! ### Operand readers (30_encoding.md R83): each takes its operand off the front of the list. -/

/-- A `:n` field: an unsigned number below `2^n`. -/
def takeBits (op : BitVec 4) (n : Nat) : List Operand → Except Reject (BitVec n × List Operand)
  | [] => .error (.missingOperand op)
  | .num v :: rest => if v < 2 ^ n then .ok (BitVec.ofNat n v, rest) else .error (.badOperand (.num v))
  | .bytes l :: _ => .error (.badOperand (.bytes l))

/-- A `nat` field. -/
def takeNat (op : BitVec 4) : List Operand → Except Reject (Nat × List Operand)
  | [] => .error (.missingOperand op)
  | .num v :: rest => .ok (v, rest)
  | .bytes l :: _ => .error (.badOperand (.bytes l))

/-- A `bytes` field: every element is an unsigned byte. -/
def takeBytes (op : BitVec 4) : List Operand → Except Reject (List Byte × List Operand)
  | [] => .error (.missingOperand op)
  | .num v :: _ => .error (.badOperand (.num v))
  | .bytes l :: rest =>
    if l.all (fun v => decide (v < 256)) then .ok (l.map (BitVec.ofNat 8), rest) else .error (.badOperand (.bytes l))

/-- A `:1` field as a truth value. -/
def takeFlag (op : BitVec 4) (ops : List Operand) : Except Reject (Bool × List Operand) :=
  match takeBits op 1 ops with
  | .error e => .error e
  | .ok (v, rest) => .ok (v == 1, rest)

/-- The end of the word: a surplus operand is outside every type of R82's row (log entry 5). -/
def endWord (i : Instr) : List Operand → Except Reject Instr
  | [] => .ok i
  | v :: _ => .error (.badOperand v)

/-- The instruction of an event word (30_encoding.md R82): operands are checked left to right, and a reserved opcode is
recognised before any operand is looked at (60_exceptions.md R254). -/
def decodeEvent (w : EventWord) : Except Reject Instr :=
  match w.op.toNat with
  | 0 => do
    let (b, r) ← takeBits w.op 8 w.operands
    endWord (.feed b) r
  | 1 => do
    let (code, r) ← takeBits w.op 16 w.operands
    let (payload, r) ← takeBytes w.op r
    let (tag, r) ← takeNat w.op r
    let (ioe, r) ← takeFlag w.op r
    endWord (.send code payload tag ioe) r
  | 2 => do
    let (tag, r) ← takeNat w.op w.operands
    endWord (.timerFire tag) r
  | 3 => do
    let (wid, r) ← takeNat w.op w.operands
    let (n, r) ← takeNat w.op r
    endWord (.writeDone wid n) r
  | 4 => endWord .reset w.operands
  | 5 => do
    let (c, r) ← takeFlag w.op w.operands
    let (o, r) ← takeFlag w.op r
    endWord (.link c o) r
  | 6 => do
    let (t, r) ← takeNat w.op w.operands
    endWord (.tick t) r
  | 7 => do
    let (crc, r) ← takeBits w.op 8 w.operands
    let (b, r) ← takeBits w.op 8 r
    endWord (.crc8Step crc b) r
  | 8 => do
    let (seed, r) ← takeBits w.op 8 w.operands
    let (bs, r) ← takeBytes w.op r
    endWord (.crc8 seed bs) r
  | 9 => do
    let (bs, r) ← takeBytes w.op w.operands
    endWord (.xor8 bs) r
  | 10 => do
    let (code, r) ← takeBits w.op 8 w.operands
    let (payload, r) ← takeBytes w.op r
    endWord (.encodeV1 code payload) r
  | 11 => do
    let (code, r) ← takeBits w.op 16 w.operands
    let (payload, r) ← takeBytes w.op r
    endWord (.encodeV2 code payload) r
  | 12 => do
    let (code, r) ← takeBits w.op 16 w.operands
    let (payload, r) ← takeBytes w.op r
    endWord (.encode code payload) r
  | 13 => .ok .reservedOp13
  | _ => .ok (.reservedOp1415 (w.op.extractLsb' 0 1))

/-! ### Selector words (30_encoding.md R84) -/

/-- `sel[12:8]`. -/
def selState (v : BitVec 13) : DecState := v.extractLsb' 8 5

/-- `sel[7:0]`. -/
def selByte (v : BitVec 13) : Byte := v.extractLsb' 0 8

/-- `sel = (state << 8) | b`. -/
def selWord (st : DecState) (b : Byte) : BitVec 13 := st ++ b

/-- One DECODER row of the opcode table: its match, its mask, and the instruction its free bits make. -/
structure SelRow where
  pat : BitVec 13
  mask : BitVec 13
  make : BitVec 13 → Instr

/-- The DECODER rows in the order the opcode table lists them. -/
def selTable : List SelRow :=
  [ ⟨0x0024, 0x1FFF, fun _ => .idleSync⟩,
    ⟨0x0000, 0x1F00, fun v => .idleDiscard (selByte v)⟩,
    ⟨0x014D, 0x1FFF, fun _ => .protoM⟩,
    ⟨0x0158, 0x1FFF, fun _ => .protoX⟩,
    ⟨0x0100, 0x1F00, fun v => .protoBad (selByte v)⟩,
    ⟨0x023E, 0x1FFF, fun _ => .dirV1From⟩,
    ⟨0x023C, 0x1FFF, fun _ => .dirV1To⟩,
    ⟨0x0221, 0x1FFF, fun _ => .dirV1Unsup⟩,
    ⟨0x0200, 0x1F00, fun v => .dirV1Other (selByte v)⟩,
    ⟨0x033E, 0x1FFF, fun _ => .dirV2From⟩,
    ⟨0x033C, 0x1FFF, fun _ => .dirV2To⟩,
    ⟨0x0321, 0x1FFF, fun _ => .dirV2Unsup⟩,
    ⟨0x0300, 0x1F00, fun v => .dirV2Other (selByte v)⟩,
    ⟨0x0400, 0x1F00, fun v => .flagV2 (selByte v)⟩,
    ⟨0x05FF, 0x1FFF, fun _ => .lenV1Jumbo⟩,
    ⟨0x0500, 0x1F00, fun v => .lenV1 (selByte v)⟩ ] ++
  [ ⟨0x0600, 0x1F00, fun v => .jlenLo (selByte v)⟩,
    ⟨0x0700, 0x1F00, fun v => .jlenHi (selByte v)⟩,
    ⟨0x0800, 0x1F00, fun v => .lenV2Lo (selByte v)⟩,
    ⟨0x0900, 0x1F00, fun v => .lenV2Hi (selByte v)⟩,
    ⟨0x0A00, 0x1F00, fun v => .codeV1 (selByte v)⟩,
    ⟨0x0B00, 0x1F00, fun v => .codeJumboV1 (selByte v)⟩,
    ⟨0x0C00, 0x1F00, fun v => .codeV2Lo (selByte v)⟩,
    ⟨0x0D00, 0x1F00, fun v => .codeV2Hi (selByte v)⟩,
    ⟨0x0E00, 0x1F00, fun v => .payloadV1 (selByte v)⟩,
    ⟨0x0F00, 0x1F00, fun v => .payloadV2 (selByte v)⟩,
    ⟨0x1000, 0x1F00, fun v => .checksumV1 (selByte v)⟩,
    ⟨0x1100, 0x1F00, fun v => .checksumV2 (selByte v)⟩,
    ⟨0x1200, 0x1E00, fun v => .badState1819 ((selState v).setWidth 1) (selByte v)⟩,
    ⟨0x1400, 0x1C00, fun v => .badState2023 ((selState v).setWidth 2) (selByte v)⟩,
    ⟨0x1800, 0x1800, fun v => .badState2431 ((selState v).setWidth 3) (selByte v)⟩ ]

/-- The first row with `(sel & mask) == match` (30_encoding.md R84). -/
def decodeSel (v : BitVec 13) : Option Instr :=
  (selTable.find? (fun r => v &&& r.mask == r.pat)).map (fun r => r.make v)

/-- Decoding of any word of the opcode table. Every selector word is taken by some row, so the last case of a selector
never arises (Laws/Decode.lean); it is answered with the byte as a bad operand. -/
def decode : CommandWord → Except Reject Instr
  | .event w => decodeEvent w
  | .sel v =>
    match decodeSel v with
    | some i => .ok i
    | none => .error (.badOperand (.num (selByte v).toNat))

/-! ### The encoder -/

/-- A byte sequence as an operand. -/
def bytesOperand (bs : List Byte) : Operand := .bytes (bs.map BitVec.toNat)

/-- A one-bit operand. -/
def flagOperand (f : Bool) : Operand := .num (if f then 1 else 0)

/-- The word of an instruction, from the tables of 30_encoding.md R82 and R84. -/
def encode : Instr → CommandWord
  | .feed b => .event ⟨0, [.num b.toNat]⟩
  | .send code payload tag ioe => .event ⟨1, [.num code.toNat, bytesOperand payload, .num tag, flagOperand ioe]⟩
  | .timerFire tag => .event ⟨2, [.num tag]⟩
  | .writeDone wid n => .event ⟨3, [.num wid, .num n]⟩
  | .reset => .event ⟨4, []⟩
  | .link c o => .event ⟨5, [flagOperand c, flagOperand o]⟩
  | .tick t => .event ⟨6, [.num t]⟩
  | .crc8Step crc b => .event ⟨7, [.num crc.toNat, .num b.toNat]⟩
  | .crc8 seed bs => .event ⟨8, [.num seed.toNat, bytesOperand bs]⟩
  | .xor8 bs => .event ⟨9, [bytesOperand bs]⟩
  | .encodeV1 code payload => .event ⟨10, [.num code.toNat, bytesOperand payload]⟩
  | .encodeV2 code payload => .event ⟨11, [.num code.toNat, bytesOperand payload]⟩
  | .encode code payload => .event ⟨12, [.num code.toNat, bytesOperand payload]⟩
  | .reservedOp13 => .event ⟨13, []⟩
  | .reservedOp1415 lo => .event ⟨7#3 ++ lo, []⟩
  | .idleSync => .sel (selWord DecState.idle 0x24)
  | .idleDiscard b => .sel (selWord DecState.idle b)
  | .protoM => .sel (selWord DecState.protoIdentifier 0x4D)
  | .protoX => .sel (selWord DecState.protoIdentifier 0x58)
  | .protoBad b => .sel (selWord DecState.protoIdentifier b)
  | .dirV1From => .sel (selWord DecState.directionV1 0x3E)
  | .dirV1To => .sel (selWord DecState.directionV1 0x3C)
  | .dirV1Unsup => .sel (selWord DecState.directionV1 0x21)
  | .dirV1Other b => .sel (selWord DecState.directionV1 b)
  | .dirV2From => .sel (selWord DecState.directionV2 0x3E)
  | .dirV2To => .sel (selWord DecState.directionV2 0x3C)
  | .dirV2Unsup => .sel (selWord DecState.directionV2 0x21)
  | .dirV2Other b => .sel (selWord DecState.directionV2 b)
  | .flagV2 b => .sel (selWord DecState.flagV2 b)
  | .lenV1Jumbo => .sel (selWord DecState.payloadLengthV1 0xFF)
  | .lenV1 b => .sel (selWord DecState.payloadLengthV1 b)
  | .jlenLo b => .sel (selWord DecState.payloadLengthJumboLow b)
  | .jlenHi b => .sel (selWord DecState.payloadLengthJumboHigh b)
  | .lenV2Lo b => .sel (selWord DecState.payloadLengthV2Low b)
  | .lenV2Hi b => .sel (selWord DecState.payloadLengthV2High b)
  | .codeV1 b => .sel (selWord DecState.codeV1 b)
  | .codeJumboV1 b => .sel (selWord DecState.codeJumboV1 b)
  | .codeV2Lo b => .sel (selWord DecState.codeV2Low b)
  | .codeV2Hi b => .sel (selWord DecState.codeV2High b)
  | .payloadV1 b => .sel (selWord DecState.payloadV1 b)
  | .payloadV2 b => .sel (selWord DecState.payloadV2 b)
  | .checksumV1 b => .sel (selWord DecState.checksumV1 b)
  | .checksumV2 b => .sel (selWord DecState.checksumV2 b)
  | .badState1819 lo b => .sel (selWord (9#4 ++ lo) b)
  | .badState2023 lo b => .sel (selWord (5#3 ++ lo) b)
  | .badState2431 lo b => .sel (selWord (3#2 ++ lo) b)

/-! ### Words numbered as the opcode table numbers them -/

/-- The operands of an opcode with every value zero or empty (30_encoding.md R82): the table gives operands no bits. -/
def zeroOperands (op : BitVec 4) : List Operand :=
  match op.toNat with
  | 0 | 2 | 6 => [.num 0]
  | 1 => [.num 0, .bytes [], .num 0, .num 0]
  | 3 | 5 | 7 => [.num 0, .num 0]
  | 8 | 10 | 11 | 12 => [.num 0, .bytes []]
  | 9 => [.bytes []]
  | _ => []

/-- The word whose table bits are `w`: an EVENT row has 4 bits (one byte), a DECODER row 13 (two bytes; the reader's
"priority" fields are no bits of a selector, log entry 6). -/
def tableWord (nbits w : Nat) : CommandWord :=
  if nbits ≤ 8 then .event ⟨BitVec.ofNat 4 w, zeroOperands (BitVec.ofNat 4 w)⟩
  else .sel (BitVec.ofNat 13 w)

/-- The instruction the decoder reads from the table bits `w`. -/
def decodeTableWord (nbits w : Nat) : Option Instr :=
  match decode (tableWord nbits w) with
  | .ok i => some i
  | .error _ => none

end Sys2Proof
end

