-- ==== Sys2Proof/Machine/State.lean ====
section
/-! DEFINITION. The state of LINKENG as plain data (spec 10_state.md), the reasons an event has no step
(60_exceptions.md R253), and the power-on state (10_state.md R41, 70_reset_and_hazards.md R282). -/

namespace Sys2Proof.Machine

/-- A model-integrity fault: the event has no step. -/
inductive Fault where
  /-- F1 BadState (60_exceptions.md R253), raised by FEED in a reserved decoder state (30_encoding.md R88), by BufAppend
  on a full buffer (20_memory.md R52), and by PAYLOAD_V1 in the cell R164 calls "not reachable" (log entry 8). Safe: the
  event changes nothing, and no reachable state raises it. -/
  | badState (state : DecState)
  deriving DecidableEq, Repr

/-- A refusal: the event has no step (60_exceptions.md R252). All are safe at exec: a refused event has no next state. -/
inductive Refusal where
  /-- An instruction of the table with no meaning yet, raised by exec's arm; no arm is in this case. Safe. -/
  | notModelled (mnemonic : String)
  /-- F2, raised by opcodes 13 to 15 (30_encoding.md R86). Safe. -/
  | reservedOp (op : BitVec 4)
  /-- F3, raised by ENCODE_V1, ENCODE_V2, ENCODE and SEND off the encoder's domain (41_encoder.md R123). Safe. -/
  | encodeOverflow (code : Half) (len : Nat)
  /-- F4, raised by SEND when the tag is pending (43_dispatcher.md R202). Safe. -/
  | duplicateTag (tag : Nat)
  /-- F5, raised by WRITE_DONE when the id is not in `WR` (43_dispatcher.md R206). Safe. -/
  | unknownWrite (wid : Nat)
  /-- F6, raised by TICK when `t < now` (43_dispatcher.md R215). Safe. -/
  | timeBackwards (t : Nat)
  /-- F7, raised by TIMER_FIRE when no armed timer belongs to the tag (43_dispatcher.md R205). Safe. -/
  | noSuchTimer (tag : Nat)
  /-- F8, raised by TIMER_FIRE before the deadline (43_dispatcher.md R205). Safe. -/
  | timerNotDue (tag : Nat)
  /-- F9, raised by decoding an operand outside its type (30_encoding.md R83) and by WRITE_DONE when `n > r.n`. Safe. -/
  | badOperand (v : Operand)
  /-- F10, raised by model construction only (60_exceptions.md R253). Safe. -/
  | badParameter (p : ParamName)
  /-- The model's own: an event word that lacks an operand of its row (log entry 5). Safe. -/
  | missingOperand (op : BitVec 4)
  deriving DecidableEq, Repr

/-- What one event ends in. -/
abbrev StepResult (σ : Type) := Host.Outcome σ Fault Refusal

/-- One record `F(info)` of the fault log (60_exceptions.md R252). -/
inductive LogEntry where
  | fault (f : Fault)
  | refused (r : Refusal)
  deriving DecidableEq, Repr

/-- The timer handle of a pending entry (10_state.md R35). -/
inductive Timer where
  | none
  | armed (deadline : Nat)
  | fired
  deriving DecidableEq, Repr

/-- An entry of `PEND` (10_state.md R35). -/
structure Pending where
  code : Half
  obuf : List Byte
  tag : Nat
  ioe : Bool
  tSend : Nat
  timer : Timer
  deriving DecidableEq, Repr

/-- Which transmission a write is (10_state.md R37). -/
inductive WriteKind where
  | primary
  | retry
  deriving DecidableEq, Repr

/-- A record of `WR` with its key `wid` (10_state.md R37). -/
structure WriteRec where
  wid : Nat
  kind : WriteKind
  tag : Nat
  n : Nat
  tSend : Nat
  deriving DecidableEq, Repr

/-- `ver` of a Frame: 1 for V1, 2 for V2 (10_state.md R36, 92_eei_decisions.md D26). -/
inductive Version where
  | v1
  | v2
  deriving DecidableEq, Repr

/-- A decoded Frame `{ver, code, payload, valid}` (10_state.md R36). -/
structure Frame where
  ver : Version
  code : Half
  payload : List Byte
  valid : Bool
  deriving DecidableEq, Repr

/-- The result a COMPLETE carries (10_state.md R36). -/
inductive Completion where
  | noData
  | frame (code : Half) (payload : List Byte) (valid : Bool)
  deriving DecidableEq, Repr

/-- The value a VAL carries: "a byte or a byte sequence" (10_state.md R36). -/
inductive Val where
  | byte (b : Byte)
  | bytes (bs : List Byte)
  deriving DecidableEq, Repr

/-- An output event (10_state.md R36). -/
inductive Output where
  | frameOut (fr : Frame)
  | complete (tag : Nat) (r : Completion)
  | sent (tag : Nat)
  | write (wid : Nat) (bytes : List Byte)
  | ret (tag : Nat) (ok : Bool)
  | val (v : Val)
  deriving DecidableEq, Repr

/-- The whole state of LINKENG (10_state.md R20 to R38, 60_exceptions.md R252). -/
structure State where
  /-- The parameters marked OPEN (00_scope.md R6), which no step writes (log entry 1). -/
  cfg : Params
  /-- R21 -/
  state : DecState
  /-- R22: 0 to-device, 1 from-device -/
  dir : BitVec 1
  /-- R23 -/
  unsup : Bool
  /-- `len_exp`, R24 -/
  lenExp : Half
  /-- `len_rcv`, R25 -/
  lenRcv : Half
  /-- R26 -/
  buf : List Byte
  /-- The capacity of `buf`, R26 -/
  cap : Half
  /-- R27 -/
  acc : Byte
  /-- R28 -/
  jumbo : Bool
  /-- R29 -/
  code : Half
  /-- The adaptive timeout window, R31 -/
  T : Nat
  /-- R32 -/
  crcerr : Nat
  /-- R33 -/
  now : Nat
  /-- `last_rx`, R34 -/
  lastRx : Nat
  /-- `PEND`, oldest first, R35 -/
  pend : List Pending
  /-- `WR`, sorted by `wid`, R37 -/
  wr : List WriteRec
  /-- `wid_next`, R37 -/
  widNext : Nat
  /-- R38 -/
  connected : Bool
  /-- R38 -/
  offline : Bool
  /-- `OUT`, R36 -/
  out : List Output
  /-- The fault log, 60_exceptions.md R252 (log entry 3) -/
  faults : List LogEntry
  /-- The events offered and not yet taken, the model's own field (log entry 2) -/
  input : List EventWord
  deriving DecidableEq, Repr

/-- The power-on state for given parameters (10_state.md R41, 70_reset_and_hazards.md R282). -/
def State.powerOn (p : Params) : State :=
  { cfg := p
    state := DecState.idle
    dir := 0
    unsup := false
    lenExp := 0
    lenRcv := 0
    buf := []
    cap := 0
    acc := 0
    jumbo := false
    code := 0
    T := p.tInit
    crcerr := 0
    now := 0
    lastRx := 0
    pend := []
    wr := []
    widNext := 0
    connected := false
    offline := false
    out := []
    faults := []
    input := [] }

/-- The machine right after power-on, with the spec defaults of 00_scope.md R6 as its parameters. -/
def State.reset : State := State.powerOn Config.defaults

end Sys2Proof.Machine
end

