-- ==== Sys2Proof/Machine/Operands.lean ====
section
/-! DEFINITION. The operand forms: widening, the little-endian halves (spec 20_memory.md R53), and clamping
(00_scope.md section 4). -/

namespace Sys2Proof.Machine

/-- `zext_16(b)`. -/
def zext16 (b : Byte) : Half := b.setWidth 16

/-- `v & 0xFF`, the byte sent first (R53). -/
def loByte (v : Half) : Byte := v.setWidth 8

/-- `v >> 8`, the byte sent second (R53). -/
def hiByte (v : Half) : Byte := (v >>> 8).setWidth 8

/-- `v | (b << 8)`: the high byte joins a received field (R53). -/
def joinHi (v : Half) (b : Byte) : Half := v ||| (zext16 b <<< 8)

/-- A length as a 16-bit wire field; the encoder's domain keeps it below 65536 (41_encoder.md R123). -/
def lenHalf (bs : List Byte) : Half := BitVec.ofNat 16 bs.length

/-- `clamp(x, lo, hi) = max(lo, min(x, hi))`. -/
def clamp (x lo hi : Nat) : Nat := max lo (min x hi)

/-- The number of a Frame's version (92_eei_decisions.md D26). -/
def verNumber : Version → Nat
  | .v1 => 1
  | .v2 => 2

end Sys2Proof.Machine
end

