-- ==== Sys2Proof/Machine/Flags.lean ====
section
/-! DEFINITION. The flags of LINKENG (spec 10_state.md R40): `unsup` and `jumbo` are registers of State, `valid` is
computed at dispatch. No other condition code exists. -/

namespace Sys2Proof.Machine

/-- `valid`: the checksum byte received equals the accumulator (42_decoder.md R168, R169). -/
def validFlag (b acc : Byte) : Bool := b == acc

/-- `unsup` after a direction byte: cleared first, then set by `'!'` (42_decoder.md R145 to R152). -/
def unsupFlag (b : Byte) : Bool := b == 0x21

/-- `crcerr` after a dispatch: one more, modulo `2^CRCERR_W`, exactly when the frame is not valid (10_state.md R32). -/
def crcerrAfter (width crcerr : Nat) (valid : Bool) : Nat :=
  if valid then crcerr else (crcerr + 1) % 2 ^ width

end Sys2Proof.Machine
end

