-- ==== Sys2Proof/Machine/Ops.lean ====
section
/-! DEFINITION. The named operations over the state: outputs, the fault log (this hardware's only "exception", spec
60_exceptions.md R250 to R252), the payload buffer, the link reset, the tables `PEND` and `WR`, matching and dispatch. -/

namespace Sys2Proof.Machine

/-! ### Outputs and the fault log -/

/-- `emit E`: appended to the step's outputs (10_state.md R36, 20_memory.md R60). -/
def State.emit (s : State) (o : Output) : State := { s with out := s.out ++ [o] }

/-- `F(info)` goes into the fault log (60_exceptions.md R252). -/
def State.record (s : State) (e : LogEntry) : State := { s with faults := s.faults ++ [e] }

/-- The event leaves the input, the model's own field (log entry 2); no state of the spec changes. -/
def State.dropEvent (s : State) (rest : List EventWord) : State := { s with input := rest }

/-- Taking an event: it leaves the input, and `OUT` is empty at the start of the step (10_state.md R36). -/
def State.takeEvent (s : State) (rest : List EventWord) : State := { s with input := rest, out := [] }

/-- What a step makes of an event's outcome, `s` being the state before the event: an event that raises has no step, so `s`
stays, its `OUT` too, and the raise is recorded in the log (60_exceptions.md R252; log entry 3). -/
def settle (s : State) : StepResult State → StepResult State
  | .next t => .next t
  | .fault f => .next (s.record (.fault f))
  | .refused r => .next (s.record (.refused r))

/-! ### The payload buffer -/

/-- `buf <- [] with cap = c` (10_state.md R26). -/
def State.allocBuf (s : State) (c : Half) : State := { s with buf := [], cap := c }

/-- `BufAppend(b)` (20_memory.md R52); `none` on a full buffer, where it must raise BadState. -/
def State.bufAppend (s : State) (b : Byte) : Option State :=
  if s.buf.length < s.cap.toNat then some { s with buf := s.buf ++ [b], lenRcv := s.lenRcv + 1 } else none

/-! ### Reset -/

/-- The decoder goes to `IDLE` and every working field to its reset value (10_state.md R41). -/
def State.clearWorking (s : State) : State :=
  { s with
    state := DecState.idle, dir := 0, unsup := false, lenExp := 0, lenRcv := 0, buf := [], cap := 0, acc := 0
    jumbo := false, code := 0 }

/-- `Reset()` (70_reset_and_hazards.md R280): `WR`, `wid_next`, `now`, `connected`, `offline` stay, nothing is emitted. -/
def State.resetLink (s : State) : State :=
  { s.clearWorking with crcerr := 0, pend := [], T := s.cfg.tInit, lastRx := 0 }

/-! ### The in-flight write table `WR` (10_state.md R37) -/

/-- `WR[wid] <- r`, keeping the list sorted by `wid`. -/
def wrInsert (r : WriteRec) : List WriteRec → List WriteRec
  | [] => [r]
  | x :: xs =>
    if r.wid < x.wid then r :: x :: xs
    else if r.wid = x.wid then r :: xs
    else x :: wrInsert r xs

/-- `WR[wid]`. -/
def wrFind (wid : Nat) (l : List WriteRec) : Option WriteRec := l.find? (fun r => r.wid == wid)

/-- `remove WR[wid]`. -/
def wrErase (wid : Nat) (l : List WriteRec) : List WriteRec := l.filter (fun r => r.wid != wid)

/-- The canonical form of `WR`: keys strictly rising. -/
abbrev wrSorted (l : List WriteRec) : Prop := l.Pairwise (fun a b => a.wid < b.wid)

/-- `Transmit(kind, e)` (43_dispatcher.md R204). -/
def State.transmit (s : State) (kind : WriteKind) (e : Pending) : State :=
  { s with
    widNext := s.widNext + 1
    wr := wrInsert ⟨s.widNext, kind, e.tag, e.obuf.length, e.tSend⟩ s.wr
    out := s.out ++ [.write s.widNext e.obuf] }

/-! ### The pending table `PEND` (10_state.md R35) -/

/-- The entry of a tag (43_dispatcher.md R205). -/
def pendFind (tag : Nat) (l : List Pending) : Option Pending := l.find? (fun e => e.tag == tag)

/-- Whether an entry of a code is pending (43_dispatcher.md R203). -/
def pendHasCode (code : Half) (l : List Pending) : Bool := l.any (fun e => e.code == code)

/-- `e.timer <- FIRED` for the entry of the tag (43_dispatcher.md R205; tags are unique, log entry 10). -/
def pendFire (tag : Nat) : List Pending → List Pending
  | [] => []
  | e :: es => if e.tag = tag then { e with timer := .fired } :: es else e :: pendFire tag es

/-! ### Matching (43_dispatcher.md R210 to R212) -/

/-- The COMPLETE of a removed entry, if the frame is valid or the entry asked for invalid ones (R212). -/
def completionOf (fr : Frame) (e : Pending) : List Output :=
  if fr.valid || e.ioe then [.complete e.tag (.frame fr.code fr.payload fr.valid)] else []

/-- `Match(fr)` under `P_MATCH = FIRST` (R210): the outputs and the table left. -/
def matchFirst (fr : Frame) : List Pending → List Output × List Pending
  | [] => ([], [])
  | e :: es =>
    if e.code = fr.code then (completionOf fr e, es)
    else ((matchFirst fr es).1, e :: (matchFirst fr es).2)

/-- `Match(fr)` under `P_MATCH = ALL` (R211): every entry of the code, oldest first. -/
def matchAll (fr : Frame) (l : List Pending) : List Output × List Pending :=
  ((l.filter (fun e => e.code == fr.code)).flatMap (completionOf fr), l.filter (fun e => e.code != fr.code))

/-- `Match(fr)` under the machine's policy. -/
def matchPend (p : MatchPolicy) (fr : Frame) (l : List Pending) : List Output × List Pending :=
  match p with
  | .first => matchFirst fr l
  | .all => matchAll fr l

/-- `Match(fr)` on the state. -/
def State.matchFrame (s : State) (fr : Frame) : State :=
  { s with
    pend := (matchPend s.cfg.matchPolicy fr s.pend).2
    out := s.out ++ (matchPend s.cfg.matchPolicy fr s.pend).1 }

/-! ### Dispatch (42_decoder.md R170) -/

/-- The Frame a dispatch emits: an invalid one keeps its code and version and has no payload (R170). -/
def State.frameOf (s : State) (ver : Version) (valid : Bool) : Frame :=
  { ver := ver, code := s.code, payload := if valid then s.buf else [], valid := valid }

/-- `Dispatch(ver, valid)`. -/
def State.dispatch (s : State) (ver : Version) (valid : Bool) : State :=
  let s₁ : State := { s with crcerr := crcerrAfter s.cfg.crcerrW s.crcerr valid, lastRx := s.now }
  ((s₁.emit (.frameOut (s.frameOf ver valid))).clearWorking).matchFrame (s.frameOf ver valid)

end Sys2Proof.Machine
end

