-- ==== Sys2Proof/Machine/Encoder.lean ====
section
/-! DEFINITION. The wire formats (spec 30_encoding.md R71 to R73) and the frame encoder ENC (41_encoder.md). -/

namespace Sys2Proof.Machine

/-- A V1 frame (R71): the checksum covers the length, the code and the payload. -/
def wireV1 (dir code : Byte) (payload : List Byte) : List Byte :=
  let body := loByte (lenHalf payload) :: code :: payload
  [0x24, 0x4D, dir] ++ body ++ [xor8 body]

/-- A V1 jumbo frame (R72). The encoder never makes one (41_encoder.md R123); the decoder accepts it. -/
def wireV1Jumbo (dir code : Byte) (payload : List Byte) : List Byte :=
  let body := Config.jumboSentinel :: code :: loByte (lenHalf payload) :: hiByte (lenHalf payload) :: payload
  [0x24, 0x4D, dir] ++ body ++ [xor8 body]

/-- A V2 frame (R73) with any flag byte: the checksum counts the flag as 0 (R78). -/
def wireV2 (dir flag : Byte) (code : Half) (payload : List Byte) : List Byte :=
  let body := loByte code :: hiByte code :: loByte (lenHalf payload) :: hiByte (lenHalf payload) :: payload
  [0x24, 0x58, dir, flag] ++ body ++ [crc8 0 (0 :: body)]

/-- The direction byte of every encoded frame (41_encoder.md R124). -/
def toDevice : Byte := 0x3C

/-- `encode_v1(code, payload)` (41_encoder.md R120). -/
def frameV1 (code : Half) (payload : List Byte) : Except Refusal (List Byte) :=
  if code.toNat > Config.v1CodeMax ∨ payload.length > Config.v1PayloadMax then
    .error (.encodeOverflow code payload.length)
  else .ok (wireV1 toDevice (loByte code) payload)

/-- `encode_v2(code, payload)` (41_encoder.md R121). -/
def frameV2 (code : Half) (payload : List Byte) : Except Refusal (List Byte) :=
  if payload.length > Config.v2PayloadMax then .error (.encodeOverflow code payload.length)
  else .ok (wireV2 toDevice 0 code payload)

/-- `encode(code, payload)` (41_encoder.md R122). -/
def frameOf (code : Half) (payload : List Byte) : Except Refusal (List Byte) :=
  if code.toNat ≤ Config.v1CodeMax then frameV1 code payload else frameV2 code payload

/-- `emit VAL(bytes)`, or the refusal of the encoding (41_encoder.md R123). -/
def emitFrame (s : State) : Except Refusal (List Byte) → StepResult State
  | .ok bs => .next (s.emit (.val (.bytes bs)))
  | .error r => .refused r

/-- `ENCODE_V1` (R120). -/
def execEncodeV1 (code : Byte) (payload : List Byte) (s : State) : StepResult State :=
  emitFrame s (frameV1 (zext16 code) payload)

/-- `ENCODE_V2` (R121). -/
def execEncodeV2 (code : Half) (payload : List Byte) (s : State) : StepResult State :=
  emitFrame s (frameV2 code payload)

/-- `ENCODE` (R122). -/
def execEncode (code : Half) (payload : List Byte) (s : State) : StepResult State :=
  emitFrame s (frameOf code payload)

end Sys2Proof.Machine
end

