-- ==== Sys2Proof/Machine/Dispatcher.lean ====
section
/-! DEFINITION. The request dispatcher DISP (spec 43_dispatcher.md): SEND, TIMER_FIRE, WRITE_DONE, TICK. -/

namespace Sys2Proof.Machine

/-! ### SEND -/

/-- The entry a successful SEND appends (R202): the first of its code gets the timer. -/
def newPending (s : State) (code : Half) (obuf : List Byte) (tag : Nat) (ioe : Bool) : Pending :=
  { code := code, obuf := obuf, tag := tag, ioe := ioe, tSend := s.now
    timer := if pendHasCode code s.pend then .none else .armed (s.now + s.T) }

/-- `PEND <- PEND ++ [e]`. -/
def State.enqueue (s : State) (e : Pending) : State := { s with pend := s.pend ++ [e] }

/-- Enqueue, and transmit unless it is an empty request for a code already pending (R202, R203). -/
def State.queueRequest (s : State) (code : Half) (payload obuf : List Byte) (tag : Nat) (ioe : Bool) : State :=
  let e := newPending s code obuf tag ioe
  if payload ≠ [] ∨ pendHasCode code s.pend = false then (s.enqueue e).transmit .primary e else s.enqueue e

/-- `SEND` (R201: link down or offline; R202: the success path, its checks in the order of 60_exceptions.md R254). -/
def execSend (code : Half) (payload : List Byte) (tag : Nat) (ioe : Bool) (s : State) : StepResult State :=
  if s.connected = false ∨ s.offline = true then
    .next ((s.emit (.complete tag .noData)).emit (.ret tag false))
  else if (pendFind tag s.pend).isSome then .refused (.duplicateTag tag)
  else
    match frameOf code payload with
    | .error r => .refused r
    | .ok obuf => .next ((s.queueRequest code payload obuf tag ioe).emit (.ret tag true))

/-! ### TIMER_FIRE -/

/-- `TIMER_FIRE tag` (R205). It does not look at the link. -/
def execTimerFire (tag : Nat) (s : State) : StepResult State :=
  match pendFind tag s.pend with
  | none => .refused (.noSuchTimer tag)
  | some e =>
    match e.timer with
    | .none => .refused (.noSuchTimer tag)
    | .fired => .refused (.noSuchTimer tag)
    | .armed d =>
      if s.now < d then .refused (.timerNotDue tag)
      else .next ({ s with pend := pendFire tag s.pend }.transmit .retry e)

/-! ### WRITE_DONE -/

/-- A primary completion (R207): successful exactly when the whole buffer was sent. -/
def State.primaryDone (s : State) (r : WriteRec) (n : Nat) : State :=
  if n = r.n then { s with T := max Config.tMin (s.T - 1) }.emit (.sent r.tag) else s

/-- A retry completion (R208): `T` is recomputed for every `n`. -/
def State.retryDone (s : State) (r : WriteRec) : State :=
  { s with T := clamp (s.now - r.tSend) Config.tMin Config.tMax }

/-- `WRITE_DONE wid, n` (R206). -/
def execWriteDone (wid n : Nat) (s : State) : StepResult State :=
  match wrFind wid s.wr with
  | none => .refused (.unknownWrite wid)
  | some r =>
    if r.n < n then .refused (.badOperand (.num n))
    else
      let s₁ : State := { s with wr := wrErase wid s.wr }
      match r.kind with
      | .primary => .next (s₁.primaryDone r n)
      | .retry => .next (s₁.retryDone r)

/-! ### TICK -/

/-- `TICK t` (R215). -/
def execTick (t : Nat) (s : State) : StepResult State :=
  if t < s.now then .refused (.timeBackwards t) else .next { s with now := t }

end Sys2Proof.Machine
end

