-- ==== Sys2Proof/Machine/Decoder.lean ====
section
/-! DEFINITION. The 31 rows of the frame decoder DEC (spec 42_decoder.md, 30_encoding.md R88), one meaning each. A row's
meaning is its rule's pseudocode; FEED performs it in the state its selector names (Machine/Feed.lean; log entry 9). -/

namespace Sys2Proof.Machine

/-- `state <- st`. -/
def State.goto (s : State) (st : DecState) : State := { s with state := st }

/-! ### Synchronisation and header -/

/-- R140 -/
def execIdleSync (s : State) : StepResult State := .next (s.goto DecState.protoIdentifier)

/-- R141: the byte is discarded. -/
def execIdleDiscard (_b : Byte) (s : State) : StepResult State := .next s

/-- R142 -/
def execProtoM (s : State) : StepResult State := .next (s.goto DecState.directionV1)

/-- R143 -/
def execProtoX (s : State) : StepResult State := .next (s.goto DecState.directionV2)

/-- R144: the byte is dropped. -/
def execProtoBad (_b : Byte) (s : State) : StepResult State := .next (s.goto DecState.idle)

/-! ### Direction byte -/

/-- The effect of a direction byte on `unsup` and `dir` (DOC 4.1 step 3, R145 to R152): `'>'` and `'<'` set `dir`, every
other byte leaves it. -/
def State.direction (s : State) (b : Byte) : State :=
  { s with
    unsup := unsupFlag b
    dir := if b = 0x3E then 1 else if b = 0x3C then 0 else s.dir }

/-- R145 -/
def execDirV1From (s : State) : StepResult State := .next ((s.direction 0x3E).goto DecState.payloadLengthV1)

/-- R146 -/
def execDirV1To (s : State) : StepResult State := .next ((s.direction 0x3C).goto DecState.payloadLengthV1)

/-- R147 -/
def execDirV1Unsup (s : State) : StepResult State := .next ((s.direction 0x21).goto DecState.payloadLengthV1)

/-- R148 -/
def execDirV1Other (_b : Byte) (s : State) : StepResult State :=
  .next { s with unsup := false, state := DecState.payloadLengthV1 }

/-- R149 -/
def execDirV2From (s : State) : StepResult State := .next ((s.direction 0x3E).goto DecState.flagV2)

/-- R150 -/
def execDirV2To (s : State) : StepResult State := .next ((s.direction 0x3C).goto DecState.flagV2)

/-- R151 -/
def execDirV2Unsup (s : State) : StepResult State := .next ((s.direction 0x21).goto DecState.flagV2)

/-- R152 -/
def execDirV2Other (_b : Byte) (s : State) : StepResult State :=
  .next { s with unsup := false, state := DecState.flagV2 }

/-! ### V1 length, code and jumbo length -/

/-- R153 -/
def execLenV1 (b : Byte) (s : State) : StepResult State :=
  .next (({ s with lenExp := zext16 b, acc := b }.allocBuf (zext16 b)).goto DecState.codeV1)

/-- R154: the buffer is not yet allocated. -/
def execLenV1Jumbo (s : State) : StepResult State :=
  .next ({ s with lenExp := 255, acc := Config.jumboSentinel, jumbo := true }.goto DecState.codeJumboV1)

/-- R156 -/
def execCodeV1 (b : Byte) (s : State) : StepResult State :=
  .next ({ s with code := zext16 b, acc := s.acc ^^^ b }.goto
    (if s.lenExp = 0 then DecState.checksumV1 else DecState.payloadV1))

/-- R157 -/
def execCodeJumboV1 (b : Byte) (s : State) : StepResult State :=
  .next ({ s with code := zext16 b, acc := s.acc ^^^ b }.goto DecState.payloadLengthJumboLow)

/-- R158 -/
def execJlenLo (b : Byte) (s : State) : StepResult State :=
  .next ({ s with lenExp := zext16 b, acc := s.acc ^^^ b }.goto DecState.payloadLengthJumboHigh)

/-- Where the decoder goes after the jumbo length (R159, R164). -/
def afterJumboLength (p : JumboZero) (len : Half) : DecState :=
  if len = 0 then
    match p with
    | .directChecksum => DecState.checksumV1
    | .absorbOne => DecState.payloadV1
    | .absorbForever => DecState.payloadV1
  else DecState.payloadV1

/-- R159 -/
def execJlenHi (b : Byte) (s : State) : StepResult State :=
  .next (({ s with lenExp := joinHi s.lenExp b, acc := s.acc ^^^ b }.allocBuf (joinHi s.lenExp b)).goto
    (afterJumboLength s.cfg.jumboZero (joinHi s.lenExp b)))

/-! ### V2 flag, code and length -/

/-- R155: the received flag is not used; the CRC counts it as 0. -/
def execFlagV2 (_b : Byte) (s : State) : StepResult State :=
  .next ({ s with acc := crcStep 0 0 }.goto DecState.codeV2Low)

/-- R160 -/
def execCodeV2Lo (b : Byte) (s : State) : StepResult State :=
  .next ({ s with code := zext16 b, acc := crcStep s.acc b }.goto DecState.codeV2High)

/-- R161 -/
def execCodeV2Hi (b : Byte) (s : State) : StepResult State :=
  .next ({ s with code := joinHi s.code b, acc := crcStep s.acc b }.goto DecState.payloadLengthV2Low)

/-- R162 -/
def execLenV2Lo (b : Byte) (s : State) : StepResult State :=
  .next ({ s with lenExp := zext16 b, acc := crcStep s.acc b }.goto DecState.payloadLengthV2High)

/-- R163 -/
def execLenV2Hi (b : Byte) (s : State) : StepResult State :=
  .next (({ s with lenExp := joinHi s.lenExp b, acc := crcStep s.acc b }.allocBuf (joinHi s.lenExp b)).goto
    (if joinHi s.lenExp b = 0 then DecState.checksumV2 else DecState.payloadV2))

/-! ### Payload -/

/-- The payload action shared by R166 and R167: append, put the new checksum in `acc`, and go on to the checksum state at
the last byte; BadState on a full buffer (20_memory.md R52). -/
def State.payloadByte (s : State) (b acc : Byte) (done : DecState) : StepResult State :=
  match s.bufAppend b with
  | none => .fault (.badState s.state)
  | some t =>
    .next ({ t with acc := acc }.goto (if t.lenRcv = t.lenExp then done else s.state))

/-- The jumbo-zero cell of `PAYLOAD_V1` with `len_exp = 0` (R164). Under `DIRECT_CHECKSUM` it is "not reachable"
(log entry 8). -/
def State.jumboZeroByte (s : State) (b : Byte) : StepResult State :=
  match s.cfg.jumboZero with
  | .directChecksum => .fault (.badState s.state)
  | .absorbOne => .next ({ s with acc := s.acc ^^^ b }.goto DecState.checksumV1)
  | .absorbForever => .next s

/-- R166 -/
def execPayloadV1 (b : Byte) (s : State) : StepResult State :=
  if s.lenExp = 0 then s.jumboZeroByte b else s.payloadByte b (s.acc ^^^ b) DecState.checksumV1

/-- R167 -/
def execPayloadV2 (b : Byte) (s : State) : StepResult State :=
  s.payloadByte b (crcStep s.acc b) DecState.checksumV2

/-! ### Checksum -/

/-- R168 -/
def execChecksumV1 (b : Byte) (s : State) : StepResult State := .next (s.dispatch .v1 (validFlag b s.acc))

/-- R169 -/
def execChecksumV2 (b : Byte) (s : State) : StepResult State := .next (s.dispatch .v2 (validFlag b s.acc))

/-! ### Reserved states (30_encoding.md R88): the state named is the row's own selector field. -/

/-- R88, states 18 and 19 -/
def execBadState1819 (lo : BitVec 1) (_b : Byte) (_s : State) : StepResult State :=
  .fault (.badState (9#4 ++ lo))

/-- R88, states 20 to 23 -/
def execBadState2023 (lo : BitVec 2) (_b : Byte) (_s : State) : StepResult State :=
  .fault (.badState (5#3 ++ lo))

/-- R88, states 24 to 31 -/
def execBadState2431 (lo : BitVec 3) (_b : Byte) (_s : State) : StepResult State :=
  .fault (.badState (3#2 ++ lo))

end Sys2Proof.Machine
end

