-- ==== Sys2Proof/Machine/Feed.lean ====
section
/-! DEFINITION. The FEED event (spec 42_decoder.md R138, 30_encoding.md R84). -/

namespace Sys2Proof.Machine

/-- Perform the rule of a decoder row. The event rows are no rows of the DECODER table and the selector never gives one
(Laws/Decode.lean); they are answered with the integrity fault. -/
def performRow (i : Instr) (s : State) : StepResult State :=
  match i with
  | .idleSync => execIdleSync s
  | .idleDiscard b => execIdleDiscard b s
  | .protoM => execProtoM s
  | .protoX => execProtoX s
  | .protoBad b => execProtoBad b s
  | .dirV1From => execDirV1From s
  | .dirV1To => execDirV1To s
  | .dirV1Unsup => execDirV1Unsup s
  | .dirV1Other b => execDirV1Other b s
  | .dirV2From => execDirV2From s
  | .dirV2To => execDirV2To s
  | .dirV2Unsup => execDirV2Unsup s
  | .dirV2Other b => execDirV2Other b s
  | .flagV2 b => execFlagV2 b s
  | .lenV1Jumbo => execLenV1Jumbo s
  | .lenV1 b => execLenV1 b s
  | .jlenLo b => execJlenLo b s
  | .jlenHi b => execJlenHi b s
  | .lenV2Lo b => execLenV2Lo b s
  | .lenV2Hi b => execLenV2Hi b s
  | .codeV1 b => execCodeV1 b s
  | .codeJumboV1 b => execCodeJumboV1 b s
  | .codeV2Lo b => execCodeV2Lo b s
  | .codeV2Hi b => execCodeV2Hi b s
  | .payloadV1 b => execPayloadV1 b s
  | .payloadV2 b => execPayloadV2 b s
  | .checksumV1 b => execChecksumV1 b s
  | .checksumV2 b => execChecksumV2 b s
  | .badState1819 lo b => execBadState1819 lo b s
  | .badState2023 lo b => execBadState2023 lo b s
  | .badState2431 lo b => execBadState2431 lo b s
  | .feed _ | .send _ _ _ _ | .timerFire _ | .writeDone _ _ | .reset | .link _ _ | .tick _ | .crc8Step _ _
  | .crc8 _ _ | .xor8 _ | .encodeV1 _ _ | .encodeV2 _ _ | .encode _ _ | .reservedOp13 | .reservedOp1415 _ =>
    .fault (.badState s.state)

/-- `FEED b` (R138): the first row that takes `(state << 8) | b` is performed. It does not look at the link. -/
def execFeed (b : Byte) (s : State) : StepResult State :=
  match decodeSel (selWord s.state b) with
  | some i => performRow i s
  | none => .fault (.badState s.state)

end Sys2Proof.Machine
end

