-- ==== Sys2Proof/Machine/Reserved.lean ====
section
/-! DEFINITION. The reserved opcodes (spec 30_encoding.md R86): refused with ReservedOp, no state changes. -/

namespace Sys2Proof.Machine

/-- `RESERVED_OP_13` -/
def execReservedOp13 (_s : State) : StepResult State := .refused (.reservedOp 13)

/-- `RESERVED_OP_14_15` -/
def execReservedOp1415 (lo : BitVec 1) (_s : State) : StepResult State :=
  .refused (.reservedOp (7#3 ++ lo))

end Sys2Proof.Machine
end

