-- ==== Sys2Proof/Machine/Reset.lean ====
section
/-! DEFINITION. The link lifecycle: RESET, LINK (spec 70_reset_and_hazards.md R280, 43_dispatcher.md R214), and the
construction of a machine from its parameters (60_exceptions.md R253, F10). -/

namespace Sys2Proof.Machine

/-- `RESET` (70_reset_and_hazards.md R280). -/
def execReset (s : State) : StepResult State := .next s.resetLink

/-- `LINK c, o` (43_dispatcher.md R214): a change of `connected` performs `Reset()`. -/
def execLink (c o : Bool) (s : State) : StepResult State :=
  let s₁ : State := { s with connected := c, offline := o }
  .next (if c = s.connected then s₁ else s₁.resetLink)

/-- Construction of the machine: F10 BadParameter for `T_INIT` outside `[T_MIN, T_MAX]` or `CRCERR_W = 0`, else the
power-on state (60_exceptions.md R253, 70_reset_and_hazards.md R282). DESIGN CHOICE: where both are bad, `T_INIT` is the
parameter reported (log entry 12). -/
def construct (p : Params) : StepResult State :=
  if p.tInit < Config.tMin ∨ Config.tMax < p.tInit then .refused (.badParameter .tInit)
  else if p.crcerrW = 0 then .refused (.badParameter .crcerrW)
  else .next (State.powerOn p)

end Sys2Proof.Machine
end

