-- ==== Sys2Proof/Machine/Dispatch.lean ====
section
/-! DEFINITION. The dispatch of an instruction to its meaning, one arm per row of the opcode table. -/

namespace Sys2Proof.Machine

/-- What one instruction does (spec/opcode_table.json's "rule" column names the rule of each arm). -/
def exec (i : Instr) (s : State) : Host.Outcome State Fault Refusal :=
  match i with
  | .feed b => Sys2Proof.Machine.execFeed b s
  | .send code payload tag ioe => Sys2Proof.Machine.execSend code payload tag ioe s
  | .timerFire tag => Sys2Proof.Machine.execTimerFire tag s
  | .writeDone wid n => Sys2Proof.Machine.execWriteDone wid n s
  | .reset => Sys2Proof.Machine.execReset s
  | .link c o => Sys2Proof.Machine.execLink c o s
  | .tick t => Sys2Proof.Machine.execTick t s
  | .crc8Step crc b => Sys2Proof.Machine.execCrc8Step crc b s
  | .crc8 seed bs => Sys2Proof.Machine.execCrc8 seed bs s
  | .xor8 bs => Sys2Proof.Machine.execXor8 bs s
  | .encodeV1 code payload => Sys2Proof.Machine.execEncodeV1 code payload s
  | .encodeV2 code payload => Sys2Proof.Machine.execEncodeV2 code payload s
  | .encode code payload => Sys2Proof.Machine.execEncode code payload s
  | .reservedOp13 => Sys2Proof.Machine.execReservedOp13 s
  | .reservedOp1415 lo => Sys2Proof.Machine.execReservedOp1415 lo s
  | .idleSync => Sys2Proof.Machine.execIdleSync s
  | .idleDiscard b => Sys2Proof.Machine.execIdleDiscard b s
  | .protoM => Sys2Proof.Machine.execProtoM s
  | .protoX => Sys2Proof.Machine.execProtoX s
  | .protoBad b => Sys2Proof.Machine.execProtoBad b s
  | .dirV1From => Sys2Proof.Machine.execDirV1From s
  | .dirV1To => Sys2Proof.Machine.execDirV1To s
  | .dirV1Unsup => Sys2Proof.Machine.execDirV1Unsup s
  | .dirV1Other b => Sys2Proof.Machine.execDirV1Other b s
  | .dirV2From => Sys2Proof.Machine.execDirV2From s
  | .dirV2To => Sys2Proof.Machine.execDirV2To s
  | .dirV2Unsup => Sys2Proof.Machine.execDirV2Unsup s
  | .dirV2Other b => Sys2Proof.Machine.execDirV2Other b s
  | .flagV2 b => Sys2Proof.Machine.execFlagV2 b s
  | .lenV1Jumbo => Sys2Proof.Machine.execLenV1Jumbo s
  | .lenV1 b => Sys2Proof.Machine.execLenV1 b s
  | .jlenLo b => Sys2Proof.Machine.execJlenLo b s
  | .jlenHi b => Sys2Proof.Machine.execJlenHi b s
  | .lenV2Lo b => Sys2Proof.Machine.execLenV2Lo b s
  | .lenV2Hi b => Sys2Proof.Machine.execLenV2Hi b s
  | .codeV1 b => Sys2Proof.Machine.execCodeV1 b s
  | .codeJumboV1 b => Sys2Proof.Machine.execCodeJumboV1 b s
  | .codeV2Lo b => Sys2Proof.Machine.execCodeV2Lo b s
  | .codeV2Hi b => Sys2Proof.Machine.execCodeV2Hi b s
  | .payloadV1 b => Sys2Proof.Machine.execPayloadV1 b s
  | .payloadV2 b => Sys2Proof.Machine.execPayloadV2 b s
  | .checksumV1 b => Sys2Proof.Machine.execChecksumV1 b s
  | .checksumV2 b => Sys2Proof.Machine.execChecksumV2 b s
  | .badState1819 lo b => Sys2Proof.Machine.execBadState1819 lo b s
  | .badState2023 lo b => Sys2Proof.Machine.execBadState2023 lo b s
  | .badState2431 lo b => Sys2Proof.Machine.execBadState2431 lo b s

end Sys2Proof.Machine
end

