-- ==== Sys2Proof/Machine/Fetch.lean ====
section
/-! DEFINITION. Where the next event comes from (log entry 2), and how a word of the opcode table is put there. -/

namespace Sys2Proof.Machine

/-- A rejected word as the refusal of its event (30_encoding.md R83, 60_exceptions.md R253). -/
def refusalOf : Reject → Refusal
  | .badOperand v => .badOperand v
  | .missingOperand op => .missingOperand op

/-- An event word goes to the front of the input. -/
def State.placeEvent (s : State) (w : EventWord) : State := { s with input := w :: s.input }

/-- A selector word is what FEED of its byte forms in its state (30_encoding.md R84): both are set. -/
def State.placeSelector (s : State) (v : BitVec 13) : State :=
  { s with state := selState v, input := ⟨0, [.num (selByte v).toNat]⟩ :: s.input }

/-- A word of either format. -/
def State.placeWord (s : State) : CommandWord → State
  | .event w => s.placeEvent w
  | .sel v => s.placeSelector v

end Sys2Proof.Machine
end

