-- ==== Sys2Proof/Machine/Step.lean ====
section
/-! DEFINITION. One step of LINKENG: one input event, run to completion (spec 00_scope.md R5, 20_memory.md R56). -/

namespace Sys2Proof.Machine

/-- The outcome of one event word: it is decoded and executed, or its rejection is the event's refusal. -/
def runEvent (w : EventWord) (s : State) : Host.Outcome State Fault Refusal :=
  match decode (.event w) with
  | .ok i => exec i s
  | .error e => .refused (refusalOf e)

/-- One step: the next event is taken and runs with `OUT` empty (10_state.md R36); if it raises, the state before it stays and
the raise is recorded (60_exceptions.md R252). Between events the state is held unchanged (60_exceptions.md R267; log entry
4). -/
def step (s : State) : Host.Outcome State Fault Refusal :=
  match s.input with
  | [] => .next s
  | w :: rest => settle (s.dropEvent rest) (runEvent w (s.takeEvent rest))

/-- `s` with the table word `w` placed where step takes its next event from. -/
def State.withFetchWord (s : State) (nbits w : Nat) : State := s.placeWord (tableWord nbits w)

end Sys2Proof.Machine
end

