-- ==== Sys2Proof/Machine/Script.lean ====
section
/-! DEFINITION. Event scripts (spec 30_encoding.md R90, R91): the pseudo-instructions as the event words they expand to,
and the spelling of a script line. -/

namespace Sys2Proof.Machine

/-- The event word of an instruction, `none` for a decoder row, which no script line names. -/
def eventOf (i : Instr) : Option EventWord :=
  match encode i with
  | .event w => some w
  | .sel _ => none

/-- `FEED b` as a word. -/
def feedWord (b : Byte) : EventWord := ⟨0, [.num b.toNat]⟩

/-- `FEEDS [b0 ... bk]` expands to one FEED per byte, in order (30_encoding.md R91, 20_memory.md R51). -/
def feeds (bs : List Byte) : List EventWord := bs.map feedWord

/-- `AWAIT code, [payload], tag` expands to `SEND code, [payload], tag, 0` (R91, 43_dispatcher.md R216). -/
def await (code : Half) (payload : List Byte) (tag : Nat) : Instr := .send code payload tag false

/-- `SENDPOLL code, tag` expands to `SEND code, [], tag, 0` (R91). -/
def sendPoll (code : Half) (tag : Nat) : Instr := .send code [] tag false

/-- A hex digit of a byte sequence's spelling (R90). -/
def hexDigit (n : Nat) : Char := if n < 10 then Char.ofNat (48 + n) else Char.ofNat (55 + n)

/-- A byte as two hex digits, without a prefix (R90). -/
def hexByte (b : Byte) : String := String.ofList [hexDigit (b.toNat / 16), hexDigit (b.toNat % 16)]

/-- A byte sequence in brackets (R90). -/
def bracketed (bs : List Byte) : String := "[" ++ String.intercalate " " (bs.map hexByte) ++ "]"

/-- A one-bit operand (R90). -/
def bitText (f : Bool) : String := if f then "1" else "0"

/-- The operands of a line, after its mnemonic. -/
def lineText (mnemonic : String) (operands : List String) : String :=
  match operands with
  | [] => mnemonic
  | _ => mnemonic ++ " " ++ String.intercalate ", " operands

/-- The script line of an event (R90), numbers in decimal. -/
def scriptLine : Instr → Option String
  | .feed b => some (lineText "FEED" [toString b.toNat])
  | .send code payload tag ioe =>
    some (lineText "SEND" [toString code.toNat, bracketed payload, toString tag, bitText ioe])
  | .timerFire tag => some (lineText "TIMER_FIRE" [toString tag])
  | .writeDone wid n => some (lineText "WRITE_DONE" [toString wid, toString n])
  | .reset => some (lineText "RESET" [])
  | .link c o => some (lineText "LINK" [bitText c, bitText o])
  | .tick t => some (lineText "TICK" [toString t])
  | .crc8Step crc b => some (lineText "CRC8_STEP" [toString crc.toNat, toString b.toNat])
  | .crc8 seed bs => some (lineText "CRC8" [toString seed.toNat, bracketed bs])
  | .xor8 bs => some (lineText "XOR8" [bracketed bs])
  | .encodeV1 code payload => some (lineText "ENCODE_V1" [toString code.toNat, bracketed payload])
  | .encodeV2 code payload => some (lineText "ENCODE_V2" [toString code.toNat, bracketed payload])
  | .encode code payload => some (lineText "ENCODE" [toString code.toNat, bracketed payload])
  | _ => none

end Sys2Proof.Machine
end

