-- ==== Sys2Proof/Safety.lean ====
section
/-! DEFINITION. What counts as a safe run, and the invariants claims use (spec 10_state.md R25 to R31, 42_decoder.md R165,
43_dispatcher.md R209 and R217, 60_exceptions.md R251 and R252). -/

namespace Sys2Proof.Machine

/-- A safe run so far: nothing was raised (60_exceptions.md R252: once a fault is recorded, "the claims of this spec no
longer apply to the run", 70_reset_and_hazards.md R295). -/
abbrev Safe (s : State) : Prop := s.faults = []

/-- The next state of an outcome, if it has one. -/
def nextOf (r : StepResult State) : Option State :=
  match r with
  | .next t => some t
  | .fault _ => none
  | .refused _ => none

/-- What an outcome raises, if it raises. -/
def raisedBy (r : StepResult State) : Option LogEntry :=
  match r with
  | .next _ => none
  | .fault f => some (.fault f)
  | .refused q => some (.refused q)

/-- The outcome with its next state, if any, changed by `f`. -/
def mapNext (f : State → State) (r : StepResult State) : StepResult State :=
  match r with
  | .next t => .next (f t)
  | .fault q => .fault q
  | .refused q => .refused q

/-- `k` steps of the machine. -/
def runSteps : Nat → State → StepResult State
  | 0, s => .next s
  | k + 1, s =>
    match step s with
    | .next t => runSteps k t
    | .fault q => .fault q
    | .refused q => .refused q

/-- The number F1 to F10 of a record (60_exceptions.md R253); 0 for the model's own names. -/
def LogEntry.number : LogEntry → Nat
  | .fault (.badState _) => 1
  | .refused (.reservedOp _) => 2
  | .refused (.encodeOverflow _ _) => 3
  | .refused (.duplicateTag _) => 4
  | .refused (.unknownWrite _) => 5
  | .refused (.timeBackwards _) => 6
  | .refused (.noSuchTimer _) => 7
  | .refused (.timerNotDue _) => 8
  | .refused (.badOperand _) => 9
  | .refused (.badParameter _) => 10
  | .refused _ => 0

/-! ### The source's error causes (60_exceptions.md R251) -/

/-- E1 to E4. -/
inductive Cause where
  | framingDesync
  | checksumFailure
  | timeout
  | linkDown
  deriving DecidableEq, Repr

/-- The cause an event raises in a state, if any: at most one (R251). -/
def causeOf (i : Instr) (s : State) : Option Cause :=
  match i with
  | .feed b =>
    if s.state = DecState.idle ∧ b ≠ 0x24 then some .framingDesync
    else if s.state = DecState.protoIdentifier ∧ b ≠ 0x4D ∧ b ≠ 0x58 then some .framingDesync
    else if (s.state = DecState.checksumV1 ∨ s.state = DecState.checksumV2) ∧ b ≠ s.acc then some .checksumFailure
    else none
  | .timerFire tag =>
    match pendFind tag s.pend with
    | none => none
    | some e =>
      match e.timer with
      | .armed d => if d ≤ s.now then some .timeout else none
      | .none => none
      | .fired => none
  | .send _ _ _ _ => if s.connected = false ∨ s.offline = true then some .linkDown else none
  | _ => none

/-! ### The decoder's map -/

/-- The next decoder state of the transition map (30_encoding.md R85; R164 for jumbo length 0). -/
def nextDecState (s : State) (b : Byte) : DecState :=
  match s.state.toNat with
  | 0 => if b = 0x24 then DecState.protoIdentifier else DecState.idle
  | 1 => if b = 0x4D then DecState.directionV1 else if b = 0x58 then DecState.directionV2 else DecState.idle
  | 2 => DecState.payloadLengthV1
  | 3 => DecState.flagV2
  | 4 => DecState.codeV2Low
  | 5 => if b = 0xFF then DecState.codeJumboV1 else DecState.codeV1
  | 6 => DecState.payloadLengthJumboHigh
  | 7 =>
    if b = 0 ∧ s.lenExp = 0 ∧ s.cfg.jumboZero = .directChecksum then DecState.checksumV1 else DecState.payloadV1
  | 8 => DecState.payloadLengthV2High
  | 9 => if b = 0 ∧ s.lenExp = 0 then DecState.checksumV2 else DecState.payloadV2
  | 10 => if s.lenExp = 0 then DecState.checksumV1 else DecState.payloadV1
  | 11 => DecState.payloadLengthJumboLow
  | 12 => DecState.codeV2High
  | 13 => DecState.payloadLengthV2Low
  | 14 =>
    if s.lenExp = 0 then
      (if s.cfg.jumboZero = .absorbOne then DecState.checksumV1 else DecState.payloadV1)
    else if s.buf.length + 1 = s.lenExp.toNat then DecState.checksumV1 else DecState.payloadV1
  | 15 => if s.buf.length + 1 = s.lenExp.toNat then DecState.checksumV2 else DecState.payloadV2
  | _ => DecState.idle

/-- The state after a frame was delivered to an idle decoder: the outputs, the matched table, the timestamp. -/
def delivered (s : State) (rest : List EventWord) (fr : Frame) : State :=
  { s with
    input := rest
    out := .frameOut fr :: (matchPend s.cfg.matchPolicy fr s.pend).1
    pend := (matchPend s.cfg.matchPolicy fr s.pend).2
    lastRx := s.now }

/-! ### Decoder invariant -/

/-- The working fields but `dir` and `unsup` at their reset values (10_state.md R30, R41). -/
abbrev FieldsClear (s : State) : Prop :=
  s.lenExp = 0 ∧ s.lenRcv = 0 ∧ s.buf = [] ∧ s.cap = 0 ∧ s.acc = 0 ∧ s.jumbo = false ∧ s.code = 0

/-- The decoder between frames: `IDLE`, every working field at its reset value (10_state.md R30). -/
abbrev Idle (s : State) : Prop := s.state = DecState.idle ∧ FieldsClear s ∧ s.dir = 0 ∧ s.unsup = false

/-- No payload buffer yet. -/
abbrev NoBuffer (s : State) : Prop := s.lenRcv = 0 ∧ s.buf = [] ∧ s.cap = 0

/-- `covered_v1` (42_decoder.md R165). -/
def coveredV1 (s : State) : List Byte :=
  (if s.jumbo then [0xFF, loByte s.code, loByte s.lenExp, hiByte s.lenExp] else [loByte s.lenExp, loByte s.code]) ++ s.buf

/-- The bytes a V2 CRC covers (42_decoder.md R165), the flag counted as 0. -/
def coveredV2 (s : State) : List Byte :=
  [0, loByte s.code, hiByte s.code, loByte s.lenExp, hiByte s.lenExp] ++ s.buf

/-- The allocated buffer: `cap = len_exp`, `len_rcv = len(buf)`, and no more bytes than expected (10_state.md R25, R26). -/
abbrev BufferInv (s : State) : Prop :=
  s.cap = s.lenExp ∧ s.lenRcv.toNat = s.buf.length ∧ s.buf.length ≤ s.lenExp.toNat

/-- What holds of the working fields in each decoder state; no reserved state. -/
def DecoderInv (s : State) : Prop :=
  match s.state.toNat with
  | 0 | 1 | 2 | 3 => FieldsClear s ∧ s.dir = 0 ∧ s.unsup = false
  | 4 | 5 | 12 => FieldsClear s
  | 6 => NoBuffer s ∧ s.jumbo = true ∧ s.lenExp = 255 ∧ hiByte s.code = 0 ∧ s.acc = xor8 [0xFF, loByte s.code]
  | 7 =>
    NoBuffer s ∧ s.jumbo = true ∧ hiByte s.lenExp = 0 ∧ hiByte s.code = 0
      ∧ s.acc = xor8 [0xFF, loByte s.code, loByte s.lenExp]
  | 8 => NoBuffer s ∧ s.jumbo = false ∧ s.lenExp = 0 ∧ s.acc = crc8 0 [0, loByte s.code, hiByte s.code]
  | 9 =>
    NoBuffer s ∧ s.jumbo = false ∧ hiByte s.lenExp = 0
      ∧ s.acc = crc8 0 [0, loByte s.code, hiByte s.code, loByte s.lenExp]
  | 10 =>
    BufferInv s ∧ s.buf = [] ∧ s.jumbo = false ∧ s.lenExp.toNat ≤ 254 ∧ s.code = 0 ∧ s.acc = loByte s.lenExp
  | 11 => NoBuffer s ∧ s.jumbo = true ∧ s.lenExp = 255 ∧ s.code = 0 ∧ s.acc = 0xFF
  | 13 => NoBuffer s ∧ s.jumbo = false ∧ s.lenExp = 0 ∧ hiByte s.code = 0 ∧ s.acc = crc8 0 [0, loByte s.code]
  | 14 =>
    BufferInv s ∧ hiByte s.code = 0 ∧ (s.jumbo = false → s.lenExp.toNat ≤ 254) ∧ s.acc = xor8 (coveredV1 s)
      ∧ (s.buf.length < s.lenExp.toNat ∨ s.lenExp = 0 ∧ s.jumbo = true ∧ s.cfg.jumboZero ≠ .directChecksum)
  | 15 => BufferInv s ∧ s.jumbo = false ∧ s.acc = crc8 0 (coveredV2 s) ∧ s.buf.length < s.lenExp.toNat
  | 16 =>
    BufferInv s ∧ hiByte s.code = 0 ∧ (s.jumbo = false → s.lenExp.toNat ≤ 254) ∧ s.buf.length = s.lenExp.toNat
      ∧ (s.acc = xor8 (coveredV1 s) ∨ s.lenExp = 0 ∧ s.jumbo = true ∧ s.cfg.jumboZero = .absorbOne)
  | 17 => BufferInv s ∧ s.jumbo = false ∧ s.acc = crc8 0 (coveredV2 s) ∧ s.buf.length = s.lenExp.toNat
  | _ => False

/-! ### Statistics and dispatcher invariants -/

/-- `T` stays in its bounds and `crcerr` in its width (10_state.md R31, R32), the parameters being valid. -/
abbrev StatsInv (s : State) : Prop :=
  s.cfg.Valid ∧ Config.tMin ≤ s.T ∧ s.T ≤ Config.tMax ∧ s.crcerr < 2 ^ s.cfg.crcerrW

/-- One entry of `PEND`: its buffer is an encoding of its code, it was sent no later than now, and an armed deadline lies
`T_MIN` to `T_MAX` after its sending (43_dispatcher.md R202). -/
def EntryInv (now : Nat) (e : Pending) : Prop :=
  (∃ payload, frameOf e.code payload = .ok e.obuf) ∧ e.tSend ≤ now
    ∧ ∀ d, e.timer = .armed d → e.tSend + Config.tMin ≤ d ∧ d ≤ e.tSend + Config.tMax

/-- `PEND`: unique tags (43_dispatcher.md R202), and no timer but on the oldest entry of a code (R217). -/
def PendInv (s : State) : Prop :=
  (∀ e ∈ s.pend, EntryInv s.now e)
    ∧ s.pend.Pairwise (fun a b => a.tag ≠ b.tag ∧ (a.code = b.code → b.timer = .none))

/-- `WR`: the canonical form, every key issued (10_state.md R37), and a retry was issued at least `T_MIN` after its entry
was sent (43_dispatcher.md R209). -/
def WrInv (s : State) : Prop :=
  wrSorted s.wr
    ∧ ∀ r ∈ s.wr, r.wid < s.widNext ∧ r.tSend ≤ s.now ∧ (r.kind = .retry → r.tSend + Config.tMin ≤ s.now)

/-- The whole invariant. -/
structure Inv (s : State) : Prop where
  decoder : DecoderInv s
  stats : StatsInv s
  pend : PendInv s
  wr : WrInv s

end Sys2Proof.Machine
end

