-- ==== Sys2Proof/Certificates/Slice0/Obligations.lean ====
section
/-! DEFINITION. The statements for the provers, from the numbered rules of spec/. Each docstring names the rule and, where
a clause rests on a decision or inference of the spec or on a choice of the model, says so. -/

open Sys2Proof Sys2Proof.Machine

/-! ### Encoding and decoding -/

/-- Decoding the word of a well-formed instruction gives it back, for every row of the opcode table and every operand
(30_encoding.md sections 4 and 5; the numbers are decision D31). -/
def Obligations.DecodeEncodeAgree : Prop :=
  ∀ i : Instr, i.wellFormed = true → decode (encode i) = .ok i

/-- Every selector word is taken by a well-formed row whose word it is, and by a BadState row exactly when its state field
is 18 or more (30_encoding.md section 5, R84 and R88, decision D31). -/
def Obligations.SelectorTakenByItsRow : Prop :=
  ∀ v : BitVec 13, ∃ i : Instr,
    decode (.sel v) = .ok i ∧ i.wellFormed = true ∧ encode i = .sel v ∧
      (18 ≤ (selState v).toNat ↔
        (∃ lo b, i = .badState1819 lo b) ∨ (∃ lo b, i = .badState2023 lo b) ∨ (∃ lo b, i = .badState2431 lo b))

/-- Words written out from the spec's encodings decode to what they stand for (30_encoding.md sections 4 and 5,
95_test_vectors.md L2 and L3). A sanity statement on fixed words. -/
def Obligations.SpecWordsDecode : Prop :=
  decode (.event ⟨0, [.num 0x24]⟩) = .ok (.feed 0x24) ∧
  decode (.event ⟨1, [.num 0x3001, .bytes [], .num 7, .num 0]⟩) = .ok (.send 0x3001 [] 7 false) ∧
  decode (.event ⟨3, [.num 0, .num 6]⟩) = .ok (.writeDone 0 6) ∧
  decode (.event ⟨5, [.num 1, .num 0]⟩) = .ok (.link true false) ∧
  decode (.event ⟨8, [.num 0, .bytes [0x31, 0x32]]⟩) = .ok (.crc8 0 [0x31, 0x32]) ∧
  decode (.event ⟨10, [.num 1, .bytes [1, 2, 3]]⟩) = .ok (.encodeV1 1 [1, 2, 3]) ∧
  decode (.event ⟨13, []⟩) = .ok .reservedOp13 ∧
  decode (.sel 0x0024) = .ok .idleSync ∧
  decode (.sel 0x0224) = .ok (.dirV1Other 0x24) ∧
  decode (.sel 0x05FE) = .ok (.lenV1 0xFE) ∧
  decode (.sel 0x104A) = .ok (.checksumV1 0x4A) ∧
  decode (.sel 0x12FF) = .ok (.badState1819 0 0xFF)

/-- A number that does not fit its field, and a byte sequence with an element above 255, are rejected with that operand
(30_encoding.md R83). That the operands are checked from the left, whatever stands after the one that does not fit, is the
model's choice (log entry 5). -/
def Obligations.MisfitOperandRejected : Prop :=
  ∀ (v : Nat) (l : List Nat) (rest : List Operand),
    (256 ≤ v →
      decode (.event ⟨0, .num v :: rest⟩) = .error (.badOperand (.num v)) ∧
      decode (.event ⟨7, .num v :: rest⟩) = .error (.badOperand (.num v)) ∧
      (∀ crc : Byte, decode (.event ⟨7, .num crc.toNat :: .num v :: rest⟩) = .error (.badOperand (.num v))) ∧
      decode (.event ⟨8, .num v :: rest⟩) = .error (.badOperand (.num v)) ∧
      decode (.event ⟨10, .num v :: rest⟩) = .error (.badOperand (.num v))) ∧
    (65536 ≤ v →
      decode (.event ⟨1, .num v :: rest⟩) = .error (.badOperand (.num v)) ∧
      decode (.event ⟨11, .num v :: rest⟩) = .error (.badOperand (.num v)) ∧
      decode (.event ⟨12, .num v :: rest⟩) = .error (.badOperand (.num v))) ∧
    (2 ≤ v →
      decode (.event ⟨5, .num v :: rest⟩) = .error (.badOperand (.num v)) ∧
      (∀ c : Bool, decode (.event ⟨5, flagOperand c :: .num v :: rest⟩) = .error (.badOperand (.num v))) ∧
      (∀ (code : Half) (bs : List Byte) (tag : Nat),
        decode (.event ⟨1, .num code.toNat :: bytesOperand bs :: .num tag :: .num v :: rest⟩)
          = .error (.badOperand (.num v)))) ∧
    ((∃ x ∈ l, 256 ≤ x) →
      decode (.event ⟨9, .bytes l :: rest⟩) = .error (.badOperand (.bytes l)) ∧
      (∀ code : Half,
        decode (.event ⟨1, .num code.toNat :: .bytes l :: rest⟩) = .error (.badOperand (.bytes l)) ∧
        decode (.event ⟨11, .num code.toNat :: .bytes l :: rest⟩) = .error (.badOperand (.bytes l)) ∧
        decode (.event ⟨12, .num code.toNat :: .bytes l :: rest⟩) = .error (.badOperand (.bytes l))) ∧
      (∀ c : Byte,
        decode (.event ⟨8, .num c.toNat :: .bytes l :: rest⟩) = .error (.badOperand (.bytes l)) ∧
        decode (.event ⟨10, .num c.toNat :: .bytes l :: rest⟩) = .error (.badOperand (.bytes l))))

/-- Opcodes 13 to 15 are refused with ReservedOp whatever operands the word has (30_encoding.md R86, decision D31). -/
def Obligations.ReservedOpsRefused : Prop :=
  (∀ s : State, exec .reservedOp13 s = .refused (.reservedOp 13)) ∧
  (∀ (lo : BitVec 1) (s : State), exec (.reservedOp1415 lo) s = .refused (.reservedOp (7#3 ++ lo))) ∧
  (∀ (w : EventWord) (s : State), 13 ≤ w.op.toNat → runEvent w s = .refused (.reservedOp w.op))

/-- A reserved decoder state raises BadState with that state: FEED in such a state, and the three rows, which name the state
their selector gives (30_encoding.md R88, decision D3); that a row executed alone does so whatever the state register holds
is the model's choice (log entry 9). -/
def Obligations.ReservedStatesRaise : Prop :=
  ∀ (b : Byte) (s : State),
    (∀ lo : BitVec 1, exec (.badState1819 lo b) s = .fault (.badState (9#4 ++ lo))) ∧
    (∀ lo : BitVec 2, exec (.badState2023 lo b) s = .fault (.badState (5#3 ++ lo))) ∧
    (∀ lo : BitVec 3, exec (.badState2431 lo b) s = .fault (.badState (3#2 ++ lo))) ∧
    (18 ≤ s.state.toNat → exec (.feed b) s = .fault (.badState s.state))

/-! ### The step -/

/-- When the word at the head of the input decodes to an instruction, the step is that instruction's outcome on the state
with the word taken and `OUT` empty (00_scope.md R5, 10_state.md R36); where it raises, `settle` leaves the state before the
event and records the raise (60_exceptions.md R252). The model's choices: the input list (log entry 2), and that the step
after a raise is a next state that goes on to the next event (log entry 3). -/
def Obligations.StepRunsDecodedInstruction : Prop :=
  ∀ (s : State) (w : EventWord) (rest : List EventWord) (i : Instr),
    s.input = w :: rest → decode (.event w) = .ok i →
      step s = settle { s with input := rest } (exec i { s with input := rest, out := [] })

/-- An event that raises has no step: no state changes, `OUT` among it, nothing is emitted, and the raise is recorded
(60_exceptions.md R252, decision D35). The event leaves the input (log entry 2), and that the machine goes on to the next
event is log entry 3. -/
def Obligations.RaisedEventIsOnlyRecorded : Prop :=
  ∀ (s : State) (w : EventWord) (rest : List EventWord), s.input = w :: rest →
    (∀ f, runEvent w { s with input := rest, out := [] } = .fault f →
      step s = .next { s with input := rest, faults := s.faults ++ [.fault f] }) ∧
    (∀ r, runEvent w { s with input := rest, out := [] } = .refused r →
      step s = .next { s with input := rest, faults := s.faults ++ [.refused r] })

/-- No step clears the fault log; a step leaves it, or adds one record and changes nothing else but that the event leaves
the input (60_exceptions.md R252, decision D35; the input list is log entry 2, that the machine goes on is log entry 3). -/
def Obligations.FaultLogNeverCleared : Prop :=
  ∀ s t : State, step s = .next t →
    t.faults = s.faults ∨ ∃ e, t = { s with input := s.input.tail, faults := s.faults ++ [e] }

/-- No event stops the machine: every step has a next state; it takes exactly one event and never writes the parameters,
and with no event offered the state is held (00_scope.md sections 2 and 3, R5 and R6; 10_state.md section 5,
60_exceptions.md section 9, 70_reset_and_hazards.md section 4). The model's choices: the fields `cfg` and `input` (log
entries 1 and 2), that an event that raises is taken too and the step goes on to a next state (log entry 3), and the step
without an event (log entry 4). -/
def Obligations.StepTakesOneEvent : Prop :=
  (∀ s : State, s.input = [] → step s = .next s) ∧
  ∀ s : State, ∃ t, step s = .next t ∧ t.cfg = s.cfg ∧ t.input = s.input.tail

/-! ### FEED -/

/-- FEED performs the row that takes `(state << 8) | b` (42_decoder.md section 1, 30_encoding.md section 5, decision
D31). -/
def Obligations.FeedPerformsSelectedRow : Prop :=
  ∀ (s : State) (b : Byte) (i : Instr), decode (.sel (selWord s.state b)) = .ok i → exec (.feed b) s = exec i s

/-- No wire byte raises a fault; the reserved and undefined values have the meanings of 30_encoding.md R87: discarded in
`IDLE`, dropped to `IDLE` after the preamble, accepted as a direction (`unsup` cleared, `dir` kept: decision D5), ignored as
a V2 flag (`acc` cleared whatever the byte: R78 and 42_decoder.md R155). -/
def Obligations.NoWireByteRaises : Prop :=
  ∀ (s : State) (b : Byte),
    (DecoderInv s → ∃ t, exec (.feed b) s = .next t) ∧
    (s.state = DecState.idle → b ≠ 0x24 → exec (.feed b) s = .next s) ∧
    (s.state = DecState.protoIdentifier → b ≠ 0x4D → b ≠ 0x58 →
      exec (.feed b) s = .next { s with state := DecState.idle }) ∧
    (s.state = DecState.directionV1 → b ≠ 0x3E → b ≠ 0x3C → b ≠ 0x21 →
      exec (.feed b) s = .next { s with unsup := false, state := DecState.payloadLengthV1 }) ∧
    (s.state = DecState.directionV2 → b ≠ 0x3E → b ≠ 0x3C → b ≠ 0x21 →
      exec (.feed b) s = .next { s with unsup := false, state := DecState.flagV2 }) ∧
    (s.state = DecState.flagV2 → exec (.feed b) s = .next { s with acc := 0, state := DecState.codeV2Low })

/-- The decoder's transition map (30_encoding.md R85; jumbo length 0 by R164, decision D7). -/
def Obligations.DecoderTransitionMap : Prop :=
  ∀ (s t : State) (b : Byte), DecoderInv s → exec (.feed b) s = .next t → t.state = nextDecState s b

/-- FEED's outcome does not depend on the link, the timeout window or the writes, nor on the fault log and the input, and
leaves them as they are (42_decoder.md R139, 92_eei_decisions.md D38). -/
def Obligations.FeedIgnoresLinkTimeoutWrites : Prop :=
  ∀ (s : State) (b : Byte) (c o : Bool) (T wn : Nat) (wr : List WriteRec) (fl : List LogEntry) (inp : List EventWord),
    exec (.feed b) { s with connected := c, offline := o, T := T, wr := wr, widNext := wn, faults := fl, input := inp } =
      mapNext
        (fun t => { t with connected := c, offline := o, T := T, wr := wr, widNext := wn, faults := fl, input := inp })
        (exec (.feed b) s)

/-! ### Decoder rows -/

/-- Synchronisation and protocol identifier: each row in its own state, for the bytes it takes, and which row FEED performs
(42_decoder.md R140 to R144). -/
def Obligations.SyncAndProtocolRows : Prop :=
  ∀ s : State,
    (s.state = DecState.idle →
      exec .idleSync s = .next { s with state := DecState.protoIdentifier } ∧
      (∀ b, b ≠ 0x24 → exec (.idleDiscard b) s = .next s) ∧
      ∀ b : Byte, exec (.feed b) s = exec (if b = 0x24 then .idleSync else .idleDiscard b) s) ∧
    (s.state = DecState.protoIdentifier →
      exec .protoM s = .next { s with state := DecState.directionV1 } ∧
      exec .protoX s = .next { s with state := DecState.directionV2 } ∧
      (∀ b, b ≠ 0x4D → b ≠ 0x58 → exec (.protoBad b) s = .next { s with state := DecState.idle }) ∧
      ∀ b : Byte,
        exec (.feed b) s = exec (if b = 0x4D then .protoM else if b = 0x58 then .protoX else .protoBad b) s)

/-- The three defined direction bytes: each row in its own state, and FEED of its byte (42_decoder.md R145 to R147 and R149
to R151). -/
def Obligations.DefinedDirectionRows : Prop :=
  ∀ s : State,
    (s.state = DecState.directionV1 →
      exec .dirV1From s = .next { s with unsup := false, dir := 1, state := DecState.payloadLengthV1 } ∧
      exec .dirV1To s = .next { s with unsup := false, dir := 0, state := DecState.payloadLengthV1 } ∧
      exec .dirV1Unsup s = .next { s with unsup := true, state := DecState.payloadLengthV1 } ∧
      exec (.feed 0x3E) s = exec .dirV1From s ∧ exec (.feed 0x3C) s = exec .dirV1To s ∧
      exec (.feed 0x21) s = exec .dirV1Unsup s) ∧
    (s.state = DecState.directionV2 →
      exec .dirV2From s = .next { s with unsup := false, dir := 1, state := DecState.flagV2 } ∧
      exec .dirV2To s = .next { s with unsup := false, dir := 0, state := DecState.flagV2 } ∧
      exec .dirV2Unsup s = .next { s with unsup := true, state := DecState.flagV2 } ∧
      exec (.feed 0x3E) s = exec .dirV2From s ∧ exec (.feed 0x3C) s = exec .dirV2To s ∧
      exec (.feed 0x21) s = exec .dirV2Unsup s)

/-- Any other direction byte clears `unsup`, leaves `dir` and moves on (42_decoder.md section 3, decision D5); that a row
executed alone does so whatever the state register and the byte is the model's choice (log entry 9). -/
def Obligations.OtherDirectionRows : Prop :=
  ∀ (s : State) (b : Byte),
    exec (.dirV1Other b) s = .next { s with unsup := false, state := DecState.payloadLengthV1 } ∧
    exec (.dirV2Other b) s = .next { s with unsup := false, state := DecState.flagV2 } ∧
    (b ≠ 0x3E → b ≠ 0x3C → b ≠ 0x21 →
      (s.state = DecState.directionV1 → exec (.feed b) s = exec (.dirV1Other b) s) ∧
      (s.state = DecState.directionV2 → exec (.feed b) s = exec (.dirV2Other b) s))

/-- The V1 length byte and the jumbo sentinel, in `PAYLOAD_LENGTH_V1` (42_decoder.md R153, R154). -/
def Obligations.LengthV1Rows : Prop :=
  ∀ s : State, s.state = DecState.payloadLengthV1 →
    (∀ b, b ≠ 0xFF → exec (.lenV1 b) s =
      .next { s with lenExp := b.setWidth 16, acc := b, buf := [], cap := b.setWidth 16, state := DecState.codeV1 }) ∧
    exec .lenV1Jumbo s =
      .next { s with lenExp := 255, acc := 0xFF, jumbo := true, state := DecState.codeJumboV1 } ∧
    ∀ b : Byte, exec (.feed b) s = exec (if b = 0xFF then .lenV1Jumbo else .lenV1 b) s

/-- The V1 code byte, jumbo or not (42_decoder.md section 4; that 0xFF is accepted is decision D6); that a row executed
alone does so whatever the state register holds is the model's choice (log entry 9). -/
def Obligations.CodeV1Rows : Prop :=
  ∀ (s : State) (b : Byte),
    exec (.codeV1 b) s =
      .next { s with
        code := b.setWidth 16, acc := s.acc ^^^ b
        state := if s.lenExp = 0 then DecState.checksumV1 else DecState.payloadV1 } ∧
    exec (.codeJumboV1 b) s =
      .next { s with code := b.setWidth 16, acc := s.acc ^^^ b, state := DecState.payloadLengthJumboLow } ∧
    (s.state = DecState.codeV1 → exec (.feed b) s = exec (.codeV1 b) s) ∧
    (s.state = DecState.codeJumboV1 → exec (.feed b) s = exec (.codeJumboV1 b) s)

/-- The jumbo length bytes (42_decoder.md section 4 and, for length 0, section 6, decision D7); that a row executed alone
does so whatever the state register holds is the model's choice (log entry 9). -/
def Obligations.JumboLengthRows : Prop :=
  ∀ (s : State) (b : Byte),
    exec (.jlenLo b) s =
      .next { s with lenExp := b.setWidth 16, acc := s.acc ^^^ b, state := DecState.payloadLengthJumboHigh } ∧
    exec (.jlenHi b) s =
      .next { s with
        lenExp := s.lenExp ||| (b.setWidth 16 <<< 8), acc := s.acc ^^^ b
        buf := [], cap := s.lenExp ||| (b.setWidth 16 <<< 8)
        state :=
          if (s.lenExp ||| (b.setWidth 16 <<< 8)) = 0 ∧ s.cfg.jumboZero = .directChecksum then DecState.checksumV1
          else DecState.payloadV1 } ∧
    (s.state = DecState.payloadLengthJumboLow → exec (.feed b) s = exec (.jlenLo b) s) ∧
    (s.state = DecState.payloadLengthJumboHigh → exec (.feed b) s = exec (.jlenHi b) s)

/-- The V2 flag, code and length bytes, each row in its own state, where FEED performs it (42_decoder.md R155, R160 to
R163). -/
def Obligations.HeaderV2Rows : Prop :=
  ∀ (s : State) (b : Byte),
    (s.state = DecState.flagV2 →
      exec (.flagV2 b) s = .next { s with acc := 0, state := DecState.codeV2Low } ∧
      exec (.feed b) s = exec (.flagV2 b) s) ∧
    (s.state = DecState.codeV2Low →
      exec (.codeV2Lo b) s =
        .next { s with code := b.setWidth 16, acc := crcStep s.acc b, state := DecState.codeV2High } ∧
      exec (.feed b) s = exec (.codeV2Lo b) s) ∧
    (s.state = DecState.codeV2High →
      exec (.codeV2Hi b) s =
        .next { s with
          code := s.code ||| (b.setWidth 16 <<< 8), acc := crcStep s.acc b, state := DecState.payloadLengthV2Low } ∧
      exec (.feed b) s = exec (.codeV2Hi b) s) ∧
    (s.state = DecState.payloadLengthV2Low →
      exec (.lenV2Lo b) s =
        .next { s with lenExp := b.setWidth 16, acc := crcStep s.acc b, state := DecState.payloadLengthV2High } ∧
      exec (.feed b) s = exec (.lenV2Lo b) s) ∧
    (s.state = DecState.payloadLengthV2High →
      exec (.lenV2Hi b) s =
        .next { s with
          lenExp := s.lenExp ||| (b.setWidth 16 <<< 8), acc := crcStep s.acc b
          buf := [], cap := s.lenExp ||| (b.setWidth 16 <<< 8)
          state := if (s.lenExp ||| (b.setWidth 16 <<< 8)) = 0 then DecState.checksumV2 else DecState.payloadV2 } ∧
      exec (.feed b) s = exec (.lenV2Hi b) s)

/-- The V1 payload byte: appended and XORed, on to the checksum at the last byte; the jumbo-zero cells; BadState on a full
buffer (42_decoder.md sections 6 and 8, decision D7; that DIRECT_CHECKSUM with length 0, "not reachable", raises BadState
is the model's choice, log entry 8, and so is that the row executed alone does all this whatever the state register holds,
log entry 9). -/
def Obligations.PayloadV1Row : Prop :=
  ∀ (s : State) (b : Byte),
    (s.lenExp ≠ 0 → s.buf.length < s.cap.toNat →
      exec (.payloadV1 b) s =
        .next { s with
          buf := s.buf ++ [b], lenRcv := s.lenRcv + 1, acc := s.acc ^^^ b
          state := if s.lenRcv + 1 = s.lenExp then DecState.checksumV1 else s.state }) ∧
    (s.lenExp ≠ 0 → s.cap.toNat ≤ s.buf.length → exec (.payloadV1 b) s = .fault (.badState s.state)) ∧
    (s.lenExp = 0 → s.cfg.jumboZero = .absorbOne →
      exec (.payloadV1 b) s = .next { s with acc := s.acc ^^^ b, state := DecState.checksumV1 }) ∧
    (s.lenExp = 0 → s.cfg.jumboZero = .absorbForever → exec (.payloadV1 b) s = .next s) ∧
    (s.lenExp = 0 → s.cfg.jumboZero = .directChecksum → exec (.payloadV1 b) s = .fault (.badState s.state)) ∧
    (s.state = DecState.payloadV1 → exec (.feed b) s = exec (.payloadV1 b) s)

/-- The V2 payload byte, in `PAYLOAD_V2` (42_decoder.md section 8, R167), and BadState on a full buffer (20_memory.md section
1, R52). -/
def Obligations.PayloadV2Row : Prop :=
  ∀ (s : State) (b : Byte), s.state = DecState.payloadV2 →
    (s.buf.length < s.cap.toNat →
      exec (.payloadV2 b) s =
        .next { s with
          buf := s.buf ++ [b], lenRcv := s.lenRcv + 1, acc := crcStep s.acc b
          state := if s.lenRcv + 1 = s.lenExp then DecState.checksumV2 else s.state }) ∧
    (s.cap.toNat ≤ s.buf.length → exec (.payloadV2 b) s = .fault (.badState s.state)) ∧
    exec (.feed b) s = exec (.payloadV2 b) s

/-- The checksum byte: the whole next state of a dispatch, by either version (42_decoder.md section 9; that `last_rx` is
written is decision D9, that FRAME_OUT comes first is decision D23); that a row executed alone does so whatever the state
register holds is the model's choice (log entry 9). -/
def Obligations.ChecksumRowsDispatch : Prop :=
  ∀ (s : State) (b : Byte),
    let after : Version → State := fun ver =>
      let fr : Frame := ⟨ver, s.code, if b = s.acc then s.buf else [], decide (b = s.acc)⟩
      { s with
        crcerr := if b = s.acc then s.crcerr else (s.crcerr + 1) % 2 ^ s.cfg.crcerrW
        lastRx := s.now
        state := DecState.idle, dir := 0, unsup := false, lenExp := 0, lenRcv := 0, buf := [], cap := 0, acc := 0
        jumbo := false, code := 0
        pend := (matchPend s.cfg.matchPolicy fr s.pend).2
        out := s.out ++ .frameOut fr :: (matchPend s.cfg.matchPolicy fr s.pend).1 }
    exec (.checksumV1 b) s = .next (after .v1) ∧ exec (.checksumV2 b) s = .next (after .v2) ∧
      (s.state = DecState.checksumV1 → exec (.feed b) s = exec (.checksumV1 b) s) ∧
      (s.state = DecState.checksumV2 → exec (.feed b) s = exec (.checksumV2 b) s)

/-! ### Matching -/

/-- Under `P_MATCH = FIRST` a dispatch removes the oldest entry of the frame's code and completes it, an invalid frame only to
a caller that asked for it; with no entry of the code the table is unchanged (43_dispatcher.md R210, R212). That the
COMPLETE comes after the FRAME_OUT is decision D23 (20_memory.md R60). -/
def Obligations.MatchFirstOfCode : Prop :=
  ∀ (s : State) (b : Byte), s.cfg.matchPolicy = .first → s.state = DecState.checksumV1 ∨ s.state = DecState.checksumV2 →
    (∀ (pre post : List Pending) (e : Pending), s.pend = pre ++ e :: post → e.code = s.code →
      (∀ x ∈ pre, x.code ≠ s.code) →
      ∃ (t : State) (fr : Frame), exec (.feed b) s = .next t ∧ t.pend = pre ++ post ∧
        fr.code = s.code ∧ fr.valid = decide (b = s.acc) ∧ (fr.valid = false → fr.payload = []) ∧
        t.out = s.out ++ [.frameOut fr] ++
          (if b = s.acc ∨ e.ioe = true then [.complete e.tag (.frame s.code fr.payload (decide (b = s.acc)))] else [])) ∧
    ((∀ x ∈ s.pend, x.code ≠ s.code) →
      ∃ (t : State) (fr : Frame), exec (.feed b) s = .next t ∧ t.pend = s.pend ∧ t.out = s.out ++ [.frameOut fr])

/-- Under `P_MATCH = ALL` a dispatch removes every entry of the frame's code and no other, and completes them oldest first
(43_dispatcher.md section 3, decision D18). -/
def Obligations.MatchAllOfCode : Prop :=
  ∀ (s : State) (b : Byte), s.cfg.matchPolicy = .all → s.state = DecState.checksumV1 ∨ s.state = DecState.checksumV2 →
    ∃ (t : State) (fr : Frame), exec (.feed b) s = .next t ∧ fr.code = s.code ∧ fr.valid = decide (b = s.acc) ∧
      t.pend = s.pend.filter (fun e => e.code != s.code) ∧
      t.out = s.out ++ [.frameOut fr] ++
        ((s.pend.filter (fun e => e.code == s.code)).filter (fun e => fr.valid || e.ioe)).map
          (fun e => .complete e.tag (.frame s.code fr.payload fr.valid))

/-! ### Checksums -/

/-- CRC8 folds the step function over the bytes, XOR8 XORs them, and neither writes any state but the one VAL output; the
corner cases the rules list (40_checksum.md R102, R106). -/
def Obligations.SequenceChecksumsComplete : Prop :=
  (∀ (seed : Byte) (bs : List Byte) (s : State),
    exec (.crc8 seed bs) s = .next { s with out := s.out ++ [.val (.byte (bs.foldl crcStep seed))] }) ∧
  (∀ (bs : List Byte) (s : State),
    exec (.xor8 bs) s = .next { s with out := s.out ++ [.val (.byte (bs.foldr (fun b a => b ^^^ a) 0))] }) ∧
  crc8 0 [] = 0 ∧ crc8 0 [0] = 0 ∧ crc8 0 [1] = 0xD5 ∧ crc8 0 [0, 0] = 0 ∧ crc8 0 [0, 1] = 0xD5 ∧
  crc8 0 [1, 0] = 0x0B ∧ crc8 0 [0xFF, 0xFF] = 0x81 ∧
  crc8 0 [0x31, 0x32, 0x33, 0x34, 0x35, 0x36, 0x37, 0x38, 0x39] = 0xBC ∧
  xor8 [] = 0 ∧ (∀ c, xor8 [c] = c) ∧ xor8 [1, 2, 3] = 0 ∧ xor8 [0xFF, 5, 0x2C, 1] = 0xD7

/-- CRC8_STEP emits the step's value and nothing else changes; the value is the table's entry for `crc ^ b`
(40_checksum.md section 1; the table is the spec's derivation). -/
def Obligations.CrcStepIsTableLookup : Prop :=
  (∀ (crc b : Byte) (s : State),
    exec (.crc8Step crc b) s = .next { s with out := s.out ++ [.val (.byte (crcStep crc b))] }) ∧
  ∀ crc b : Byte, crcTab[(crc ^^^ b).toNat]? = some (crcStep crc b)

/-- The CRC is linear over XOR on sequences of one length (40_checksum.md section 1, property 2, the spec's derivation). -/
def Obligations.CrcIsLinear : Prop :=
  ∀ x y : List Byte, x.length = y.length →
    crc8 0 (List.zipWith (fun a b => a ^^^ b) x y) = crc8 0 x ^^^ crc8 0 y

/-- Leading zeros do not change a zero seed, and appending the CRC gives zero (40_checksum.md section 1, properties 1 and
3, the spec's derivation). -/
def Obligations.CrcResidueAndLeadingZeros : Prop :=
  (∀ (k : Nat) (x : List Byte), crc8 0 (List.replicate k 0 ++ x) = crc8 0 x) ∧
  ∀ x : List Byte, crc8 0 (x ++ [crc8 0 x]) = 0

/-- One changed byte changes both checksums (40_checksum.md section 1, property 2, and section 2, the spec's
derivation). -/
def Obligations.OneChangedByteChangesChecksums : Prop :=
  ∀ (pre post : List Byte) (a b seed : Byte), a ≠ b →
    crc8 seed (pre ++ a :: post) ≠ crc8 seed (pre ++ b :: post) ∧ xor8 (pre ++ a :: post) ≠ xor8 (pre ++ b :: post)

/-- XOR-8 does not depend on the order of the bytes (40_checksum.md section 2, the spec's derivation; conflict C10). -/
def Obligations.XorIgnoresOrder : Prop :=
  ∀ x y : List Byte, x.Perm y → xor8 x = xor8 y

/-! ### Encoder -/

/-- ENCODE_V1: the frame on its domain, and `24 4D 3C 00 c c` for an empty payload (41_encoder.md R120); EncodeOverflow off it
(R123, decisions D10 and D43); BadOperand for a code above 255, whatever operands follow (R83 and decision D43; that the
operands are checked from the left is the model's choice, log entry 5). -/
def Obligations.EncodeV1Result : Prop :=
  ∀ (code : Byte) (payload : List Byte) (s : State),
    (code.toNat ≤ 254 → payload.length ≤ 254 →
      exec (.encodeV1 code payload) s =
        .next { s with
          out := s.out ++ [.val (.bytes ([0x24, 0x4D, 0x3C, BitVec.ofNat 8 payload.length, code] ++ payload ++
            [xor8 ([BitVec.ofNat 8 payload.length, code] ++ payload)]))] }) ∧
    (254 < code.toNat ∨ 254 < payload.length →
      exec (.encodeV1 code payload) s = .refused (.encodeOverflow (code.setWidth 16) payload.length)) ∧
    (code.toNat ≤ 254 →
      exec (.encodeV1 code []) s = .next { s with out := s.out ++ [.val (.bytes [0x24, 0x4D, 0x3C, 0, code, code])] }) ∧
    ∀ (v : Nat) (rest : List Operand), 255 < v → decode (.event ⟨10, .num v :: rest⟩) = .error (.badOperand (.num v))

/-- ENCODE_V2: the frame for a payload of at most 65535 bytes (41_encoder.md R121); EncodeOverflow for a longer one (R123,
decision D10); BadOperand for a code above 65535, whatever operands follow (R83; that the operands are checked from the
left is the model's choice, log entry 5). -/
def Obligations.EncodeV2Result : Prop :=
  ∀ (code : Half) (payload : List Byte) (s : State),
    let n : Half := BitVec.ofNat 16 payload.length
    let body : List Byte :=
      [0, code.setWidth 8, (code >>> 8).setWidth 8, n.setWidth 8, (n >>> 8).setWidth 8] ++ payload
    (payload.length ≤ 65535 →
      exec (.encodeV2 code payload) s =
        .next { s with out := s.out ++ [.val (.bytes ([0x24, 0x58, 0x3C] ++ body ++ [crc8 0 body]))] }) ∧
    (65535 < payload.length →
      exec (.encodeV2 code payload) s = .refused (.encodeOverflow code payload.length)) ∧
    ∀ (v : Nat) (rest : List Operand), 65535 < v → decode (.event ⟨11, .num v :: rest⟩) = .error (.badOperand (.num v))

/-- ENCODE is ENCODE_V1 for a code of at most 254 and ENCODE_V2 above; it completes exactly on the domain of the one
selected (41_encoder.md, the version-selecting encoder; the refusal off the domain is decision D10). -/
def Obligations.EncodeSelectsVersion : Prop :=
  ∀ (code : Half) (payload : List Byte) (s : State),
    (∀ c : Byte, code = c.setWidth 16 → code.toNat ≤ 254 → exec (.encode code payload) s = exec (.encodeV1 c payload) s) ∧
    (254 < code.toNat → exec (.encode code payload) s = exec (.encodeV2 code payload) s) ∧
    (payload.length ≤ 254 ∨ (254 < code.toNat ∧ payload.length ≤ 65535) → ∃ bs, frameOf code payload = .ok bs ∧
      exec (.encode code payload) s = .next { s with out := s.out ++ [.val (.bytes bs)] }) ∧
    ((code.toNat ≤ 254 ∧ 254 < payload.length) ∨ 65535 < payload.length →
      exec (.encode code payload) s = .refused (.encodeOverflow code payload.length))

/-- Every encoded frame has direction byte 0x3C (41_encoder.md R124). -/
def Obligations.EncodedDirectionIsToDevice : Prop :=
  ∀ (code : Half) (payload bs : List Byte),
    frameV1 code payload = .ok bs ∨ frameV2 code payload = .ok bs ∨ frameOf code payload = .ok bs → bs[2]? = some 0x3C

/-! ### Dispatcher -/

/-- SEND on a link that is down or offline completes at once with no data and returns false, before any other check
(43_dispatcher.md section 1, decisions D37 and D13). -/
def Obligations.SendFailsFast : Prop :=
  ∀ (code : Half) (payload : List Byte) (tag : Nat) (ioe : Bool) (s : State),
    s.connected = false ∨ s.offline = true →
      exec (.send code payload tag ioe) s =
        .next { s with out := s.out ++ [.complete tag .noData, .ret tag false] }

/-- SEND on a usable link with a fresh tag: the entry is appended, with a timer exactly when it is the first of its code,
and transmitted unless it is an empty request for a code already pending (43_dispatcher.md section 1, decisions D11, D12,
D17). A transmission adds its record to `WR` under the key `wid_next` and leaves every other key (10_state.md section 4). -/
def Obligations.SendQueuesRequest : Prop :=
  ∀ (code : Half) (payload ob : List Byte) (tag : Nat) (ioe : Bool) (s : State),
    let new : WriteRec := ⟨s.widNext, .primary, tag, ob.length, s.now⟩
    s.connected = true → s.offline = false → (∀ e ∈ s.pend, e.tag ≠ tag) → frameOf code payload = .ok ob →
      ((∀ e ∈ s.pend, e.code ≠ code) →
        exec (.send code payload tag ioe) s =
          .next { s with
            pend := s.pend ++ [⟨code, ob, tag, ioe, s.now, .armed (s.now + s.T)⟩]
            widNext := s.widNext + 1
            wr := wrInsert new s.wr
            out := s.out ++ [.write s.widNext ob, .ret tag true] }) ∧
      ((∃ e ∈ s.pend, e.code = code) → payload ≠ [] →
        exec (.send code payload tag ioe) s =
          .next { s with
            pend := s.pend ++ [⟨code, ob, tag, ioe, s.now, .none⟩]
            widNext := s.widNext + 1
            wr := wrInsert new s.wr
            out := s.out ++ [.write s.widNext ob, .ret tag true] }) ∧
      ((∃ e ∈ s.pend, e.code = code) → payload = [] →
        exec (.send code payload tag ioe) s =
          .next { s with pend := s.pend ++ [⟨code, ob, tag, ioe, s.now, .none⟩], out := s.out ++ [.ret tag true] }) ∧
      wrFind s.widNext (wrInsert new s.wr) = some new ∧
      (∀ w, w ≠ s.widNext → wrFind w (wrInsert new s.wr) = wrFind w s.wr) ∧
      (WrInv s → wrInsert new s.wr = s.wr ++ [new])

/-- The refusals of SEND and WRITE_DONE, in the order of their checks: DuplicateTag before EncodeOverflow, UnknownWrite
before BadOperand for a count above the buffer's length (60_exceptions.md section 3, decisions D10, D11, D37). -/
def Obligations.SendAndWriteDoneRefusals : Prop :=
  (∀ (code : Half) (payload : List Byte) (tag : Nat) (ioe : Bool) (s : State),
    s.connected = true → s.offline = false →
      ((∃ e ∈ s.pend, e.tag = tag) → exec (.send code payload tag ioe) s = .refused (.duplicateTag tag)) ∧
      ((∀ e ∈ s.pend, e.tag ≠ tag) → (code.toNat ≤ 254 ∧ 254 < payload.length) ∨ 65535 < payload.length →
        exec (.send code payload tag ioe) s = .refused (.encodeOverflow code payload.length))) ∧
  ∀ (wid n : Nat) (s : State),
    ((∀ r ∈ s.wr, r.wid ≠ wid) → exec (.writeDone wid n) s = .refused (.unknownWrite wid)) ∧
    ∀ r, wrFind wid s.wr = some r ∨ (WrInv s ∧ r ∈ s.wr ∧ r.wid = wid) → r.n < n →
      exec (.writeDone wid n) s = .refused (.badOperand (.num n))

/-- TIMER_FIRE of a due armed timer marks the tag's entry FIRED and retransmits the entry's own buffer as a RETRY write,
whatever the link; it is refused when no armed timer belongs to the tag, or before the deadline (43_dispatcher.md section 2,
decisions D17 and D39). The record goes into `WR` under the key `wid_next` and every other key stays (10_state.md section
4). -/
def Obligations.TimerFireRetransmits : Prop :=
  ∀ (tag : Nat) (s : State),
    ((∀ e ∈ s.pend, e.tag ≠ tag) → exec (.timerFire tag) s = .refused (.noSuchTimer tag)) ∧
    ∀ (pre post : List Pending) (e : Pending), s.pend = pre ++ e :: post → e.tag = tag →
      (∀ x ∈ pre, x.tag ≠ tag) → (∀ x ∈ post, x.tag ≠ tag) →
      let new : WriteRec := ⟨s.widNext, .retry, tag, e.obuf.length, e.tSend⟩
      (e.timer = .none ∨ e.timer = .fired → exec (.timerFire tag) s = .refused (.noSuchTimer tag)) ∧
      (∀ d, e.timer = .armed d → s.now < d → exec (.timerFire tag) s = .refused (.timerNotDue tag)) ∧
      (∀ d, e.timer = .armed d → d ≤ s.now →
        exec (.timerFire tag) s =
          .next { s with
            pend := pre ++ { e with timer := .fired } :: post
            widNext := s.widNext + 1
            wr := wrInsert new s.wr
            out := s.out ++ [.write s.widNext e.obuf] }) ∧
      wrFind s.widNext (wrInsert new s.wr) = some new ∧
      (∀ w, w ≠ s.widNext → wrFind w (wrInsert new s.wr) = wrFind w s.wr) ∧
      (WrInv s → wrInsert new s.wr = s.wr ++ [new])

/-- WRITE_DONE of a primary write removes its record; a whole write shrinks `T` by one down to 100 and emits SENT, a
partial one does nothing more (43_dispatcher.md section 2, decisions D13, D14, D15). -/
def Obligations.PrimaryWriteDone : Prop :=
  ∀ (wid n : Nat) (r : WriteRec) (s : State),
    wrFind wid s.wr = some r ∨ (WrInv s ∧ r ∈ s.wr ∧ r.wid = wid) → r.kind = .primary →
    (n = r.n →
      exec (.writeDone wid n) s =
        .next { s with
          wr := s.wr.filter (fun x => x.wid != wid), T := max 100 (s.T - 1), out := s.out ++ [.sent r.tag] }) ∧
    (n < r.n → exec (.writeDone wid n) s = .next { s with wr := s.wr.filter (fun x => x.wid != wid) })

/-- WRITE_DONE of a retry write sets `T` to the time since the entry was sent, clamped to [100, 2000], for every `n`
(43_dispatcher.md section 2, decision D16); where the write table's invariant holds, at least `T_MIN` has passed, so the
clamp's lower bound never binds (the spec's derivation). -/
def Obligations.RetryWriteDone : Prop :=
  ∀ (wid n : Nat) (r : WriteRec) (s : State),
    wrFind wid s.wr = some r ∨ (WrInv s ∧ r ∈ s.wr ∧ r.wid = wid) → r.kind = .retry → n ≤ r.n →
    exec (.writeDone wid n) s =
      .next { s with
        wr := s.wr.filter (fun x => x.wid != wid), T := max 100 (min (s.now - r.tSend) 2000) } ∧
    (WrInv s → 100 ≤ s.now - r.tSend)

/-- RESET: the elements it writes, and nothing else; done twice it is done once (70_reset_and_hazards.md section 1,
decisions D9, D19, D24, D25). -/
def Obligations.ResetEffect : Prop :=
  ∀ s : State,
    exec .reset s =
      .next { s with
        state := DecState.idle, dir := 0, unsup := false, lenExp := 0, lenRcv := 0, buf := [], cap := 0, acc := 0
        jumbo := false, code := 0, crcerr := 0, pend := [], T := s.cfg.tInit, lastRx := 0 } ∧
    ∀ t, exec .reset s = .next t → exec .reset t = .next t

/-- LINK latches both inputs, and resets exactly when `connected` changes (43_dispatcher.md section 4, decision D20). -/
def Obligations.LinkEffect : Prop :=
  ∀ (c o : Bool) (s : State),
    (c = s.connected → exec (.link c o) s = .next { s with offline := o }) ∧
    (c ≠ s.connected → exec (.link c o) s = exec .reset { s with connected := c, offline := o } ∧
      ∃ t, exec (.link c o) s = .next t ∧ t.connected = c ∧ t.offline = o ∧ t.pend = [] ∧ t.T = s.cfg.tInit ∧
        t.wr = s.wr ∧ t.now = s.now ∧ t.out = s.out)

/-- TICK sets the time and never moves it back (43_dispatcher.md section 4, decision D2). -/
def Obligations.TickEffect : Prop :=
  ∀ (t : Nat) (s : State),
    (s.now ≤ t → exec (.tick t) s = .next { s with now := t }) ∧
    (t < s.now → exec (.tick t) s = .refused (.timeBackwards t))

/-! ### Power-on and invariants -/

/-- The power-on values, and the construction that refuses bad parameters (70_reset_and_hazards.md section 2,
60_exceptions.md section 3, decision D30). The model's choices: State.reset takes the spec defaults of 00_scope.md section 3
as its parameters (log entry 1), the input and the fault log start empty (log entries 2 and 3), and T_INIT is reported
where CRCERR_W is bad too (log entry 12). -/
def Obligations.PowerOnState : Prop :=
  State.reset = State.powerOn ⟨200, 32, .directChecksum, .first⟩ ∧
  ∀ p : Params,
    (100 ≤ p.tInit ∧ p.tInit ≤ 2000 ∧ p.crcerrW ≠ 0 → construct p = .next (State.powerOn p)) ∧
    (p.tInit < 100 ∨ 2000 < p.tInit → construct p = .refused (.badParameter .tInit)) ∧
    (100 ≤ p.tInit → p.tInit ≤ 2000 → p.crcerrW = 0 → construct p = .refused (.badParameter .crcerrW)) ∧
    exec .reset (State.powerOn p) = .next (State.powerOn p) ∧
    (let s := State.powerOn p
     s.state = DecState.idle ∧ FieldsClear s ∧ s.dir = 0 ∧ s.unsup = false ∧ s.T = p.tInit ∧ s.crcerr = 0 ∧
       s.lastRx = 0 ∧ s.pend = [] ∧ s.wr = [] ∧ s.out = [] ∧ s.widNext = 0 ∧ s.now = 0 ∧
       s.connected = false ∧ s.offline = false ∧ s.cfg = p ∧ s.input = [] ∧ s.faults = [])

/-- The invariant holds at power-on for every valid choice of the parameters. -/
def Obligations.InvAtPowerOn : Prop :=
  Inv State.reset ∧ ∀ p : Params, p.Valid → Inv (State.powerOn p)

/-- Every step keeps the decoder's invariant: no reserved state, clean fields between frames, the buffer within its
length, the accumulator equal to the checksum of the bytes covered (10_state.md section 2, 42_decoder.md section 7, the
spec's derivation). -/
def Obligations.DecoderInvKept : Prop :=
  ∀ s t : State, DecoderInv s → step s = .next t → DecoderInv t

/-- Every step keeps `T` in its bounds (00_scope.md R7), and `crcerr` in its width (10_state.md R32), for valid
parameters. -/
def Obligations.StatsInvKept : Prop :=
  ∀ s t : State, StatsInv s → step s = .next t → StatsInv t

/-- Every step keeps the pending table's invariant: unique tags, and at most the oldest entry of a code has a timer
(43_dispatcher.md section 5, the spec's derivation). -/
def Obligations.PendInvKept : Prop :=
  ∀ s t : State, StatsInv s → PendInv s → step s = .next t → PendInv t

/-- Every step keeps the write table's invariant: canonical form, issued keys, and a retry issued at least `T_MIN` after
its entry was sent (10_state.md section 4, 43_dispatcher.md section 2, the spec's derivation). -/
def Obligations.WrInvKept : Prop :=
  ∀ s t : State, PendInv s → WrInv s → step s = .next t → WrInv t

/-- What the decoder's invariant gives the buffer in every state: `len_rcv = len(buf) <= len_exp` and `len(buf) <= cap`
(10_state.md section 2, the spec's derivation). -/
def Obligations.BufferBounds : Prop :=
  ∀ s : State, DecoderInv s →
    s.lenRcv.toNat = s.buf.length ∧ s.buf.length ≤ s.cap.toNat ∧ s.lenRcv.toNat ≤ s.lenExp.toNat ∧ s.state.toNat ≤ 17

/-! ### Whole-machine rules -/

/-- An entry of `PEND` after a step was there before, or is the one appended now, or is one whose due timer has just
fired: no timer is armed again, and no buffer is written (10_state.md section 4, 20_memory.md section 6, 43_dispatcher.md
section 2, the spec's derivation). -/
def Obligations.PendingEntriesEvolve : Prop :=
  ∀ s t : State, step s = .next t → ∀ e' ∈ t.pend,
    e' ∈ s.pend ∨
    (∃ e ∈ s.pend, ∃ d, e.timer = .armed d ∧ d ≤ s.now ∧ e' = { e with timer := .fired }) ∨
    (t.pend = s.pend ++ [e'] ∧ e'.tSend = s.now ∧ (e'.timer = .none ∨ e'.timer = .armed (s.now + s.T)))

/-- `crcerr` is written by a dispatch of an invalid frame, which adds one modulo `2^CRCERR_W`, and by a reset, which zeroes
it; no event writes any other value (10_state.md R32). Which LINK resets is 43_dispatcher.md R214 (decision D20); that a
decoder row executed alone does so whatever the state register holds is the model's choice (log entry 9). -/
def Obligations.CrcerrCountsInvalidFrames : Prop :=
  ∀ (i : Instr) (s t : State), exec i s = .next t →
    t.crcerr =
      match i with
      | .reset => 0
      | .link c _ => if c = s.connected then s.crcerr else 0
      | .feed b =>
        if (s.state = DecState.checksumV1 ∨ s.state = DecState.checksumV2) ∧ b ≠ s.acc then
          (s.crcerr + 1) % 2 ^ s.cfg.crcerrW
        else s.crcerr
      | .checksumV1 b => if b = s.acc then s.crcerr else (s.crcerr + 1) % 2 ^ s.cfg.crcerrW
      | .checksumV2 b => if b = s.acc then s.crcerr else (s.crcerr + 1) % 2 ^ s.cfg.crcerrW
      | _ => s.crcerr

/-- `now` never decreases, and only TICK advances it (10_state.md section 3, decisions D2 and D30). -/
def Obligations.TimeAdvancesOnlyByTick : Prop :=
  (∀ s t : State, step s = .next t → s.now ≤ t.now) ∧
  ∀ (i : Instr) (s t : State), exec i s = .next t → t.now ≠ s.now → i = .tick t.now

/-- Each error cause of 60_exceptions.md R251 records and emits what its row says, and the event that raises it completes
normally, with nothing in the fault log (R257, decision D35). A framing desync reports nothing; a checksum failure emits the
invalid frame, counts it, and completes only matched entries that asked for invalid frames; a timeout fires the tag's own
timer and writes that entry's own buffer; a link-down send completes with no data and returns false. (At most one cause an
event is the spec's inference.) -/
def Obligations.ErrorCausesReported : Prop :=
  ∀ (i : Instr) (s : State),
    (causeOf i s = some .framingDesync → exec i s = .next { s with state := DecState.idle }) ∧
    (causeOf i s = some .checksumFailure →
      ∃ (t : State) (cs : List Output), exec i s = .next t ∧ t.faults = s.faults ∧
        t.out = s.out ++ .frameOut ⟨if s.state = DecState.checksumV1 then .v1 else .v2, s.code, [], false⟩ :: cs ∧
        t.crcerr = (s.crcerr + 1) % 2 ^ s.cfg.crcerrW ∧
        ∀ o ∈ cs, ∃ e ∈ s.pend, e.code = s.code ∧ e.ioe = true ∧ o = .complete e.tag (.frame s.code [] false)) ∧
    (causeOf i s = some .timeout →
      ∃ (t : State) (tag : Nat) (pre post : List Pending) (e : Pending),
        i = .timerFire tag ∧ s.pend = pre ++ e :: post ∧ e.tag = tag ∧ exec i s = .next t ∧ t.faults = s.faults ∧
        t.pend = pre ++ { e with timer := .fired } :: post ∧ t.out = s.out ++ [.write s.widNext e.obuf]) ∧
    (causeOf i s = some .linkDown →
      ∃ (code : Half) (payload : List Byte) (tag : Nat) (ioe : Bool), i = .send code payload tag ioe ∧
        exec i s = .next { s with out := s.out ++ [.complete tag .noData, .ret tag false] }) ∧
    (causeOf i s ≠ none → ∃ t, exec i s = .next t ∧ t.faults = s.faults)

/-- Under ABSORB_FOREVER a jumbo frame of length 0 hangs the decoder (70_reset_and_hazards.md section 3, decision D7): once in
`PAYLOAD_V1` with length 0, every byte is absorbed and changes nothing; and an idle decoder fed the header of such a frame
is there, whatever bytes follow, with nothing emitted at any step. -/
def Obligations.AbsorbForeverHangs : Prop :=
  ∀ (s : State) (bs : List Byte) (rest : List EventWord), s.cfg.jumboZero = .absorbForever →
    (s.state = DecState.payloadV1 → s.lenExp = 0 → bs ≠ [] → s.input = feeds bs ++ rest →
      runSteps bs.length s = .next { s with input := rest, out := [] }) ∧
    ∀ dir c : Byte, Idle s → s.input = feeds ([0x24, 0x4D, dir, 0xFF, c, 0, 0] ++ bs) ++ rest →
      (∃ t, runSteps (7 + bs.length) s = .next t ∧ t.state = DecState.payloadV1 ∧ t.lenExp = 0 ∧ t.buf = [] ∧
        t.pend = s.pend ∧ t.crcerr = s.crcerr ∧ t.lastRx = s.lastRx ∧ t.input = rest) ∧
      ∀ k, 0 < k → k ≤ 7 + bs.length → ∃ u, runSteps k s = .next u ∧ u.out = [] ∧ u.faults = s.faults

/-! ### Headlines -/

/-- Every wire frame (V1, V1 jumbo, V2; any direction byte, any V2 flag) fed byte by byte to an idle decoder is delivered
valid, at its last byte and not before, and the decoder is idle again (30_encoding.md sections 1 to 3, 42_decoder.md, the
spec's derivation; a jumbo frame of length 0 under DIRECT_CHECKSUM, decision D7). -/
def Obligations.WireFramesAreDelivered : Prop :=
  ∀ (s : State) (rest : List EventWord) (dir flag c : Byte) (code : Half) (payload frame : List Byte) (fr : Frame),
    Idle s → s.input = feeds frame ++ rest →
    ((frame = wireV1 dir c payload ∧ payload.length ≤ 254 ∧ fr = ⟨.v1, c.setWidth 16, payload, true⟩) ∨
     (frame = wireV1Jumbo dir c payload ∧ payload.length ≤ 65535 ∧
        (payload ≠ [] ∨ s.cfg.jumboZero = .directChecksum) ∧ fr = ⟨.v1, c.setWidth 16, payload, true⟩) ∨
     (frame = wireV2 dir flag code payload ∧ payload.length ≤ 65535 ∧ fr = ⟨.v2, code, payload, true⟩)) →
      runSteps frame.length s = .next (delivered s rest fr) ∧
      ∀ k, 0 < k → k < frame.length → ∃ u, runSteps k s = .next u ∧ u.out = [] ∧ u.faults = s.faults

/-- The round trip: the encoder's own output, fed byte by byte to an idle decoder, emits exactly one FRAME_OUT, at the last
byte, with the version, code and payload encoded and `valid`, for every code and payload of the encoder's domain, and for
ENCODE_V2 with any code (41_encoder.md, the spec's derivation). -/
def Obligations.EncoderRoundTrip : Prop :=
  ∀ (s : State) (rest : List EventWord) (code : Half) (payload bs : List Byte),
    Idle s → s.input = feeds bs ++ rest →
    (frameOf code payload = .ok bs →
      runSteps bs.length s =
        .next (delivered s rest ⟨if code.toNat ≤ 254 then .v1 else .v2, code, payload, true⟩) ∧
      ∀ k, 0 < k → k < bs.length → ∃ u, runSteps k s = .next u ∧ u.out = []) ∧
    (frameV2 code payload = .ok bs →
      runSteps bs.length s = .next (delivered s rest ⟨.v2, code, payload, true⟩) ∧
      ∀ k, 0 < k → k < bs.length → ∃ u, runSteps k s = .next u ∧ u.out = [])

/-- A wire frame (V1, V1 jumbo, V2) with one code or payload byte replaced by another value is dispatched invalid with no
payload, and `crcerr` rises by exactly one (42_decoder.md section 10, the spec's derivation; a jumbo frame of length 0 under
DIRECT_CHECKSUM, decision D7). -/
def Obligations.CorruptedFrameCountedOnce : Prop :=
  ∀ (s : State) (rest : List EventWord) (dir flag c x : Byte) (code : Half) (payload frame : List Byte) (p : Nat),
    Idle s → s.input = feeds (frame.set p x) ++ rest → frame[p]? ≠ some x →
    ((frame = wireV1 dir c payload ∧ payload.length ≤ 254 ∧ 4 ≤ p ∧ p < 5 + payload.length) ∨
     (frame = wireV1Jumbo dir c payload ∧ payload.length ≤ 65535 ∧
        (payload ≠ [] ∨ s.cfg.jumboZero = .directChecksum) ∧ (p = 4 ∨ 7 ≤ p ∧ p < 7 + payload.length)) ∨
     (frame = wireV2 dir flag code payload ∧ payload.length ≤ 65535 ∧
        (p = 4 ∨ p = 5 ∨ 8 ≤ p ∧ p < 8 + payload.length))) →
      ∃ (t : State) (fr : Frame), runSteps frame.length s = .next t ∧ t.out.head? = some (.frameOut fr) ∧
        fr.valid = false ∧ fr.payload = [] ∧ t.crcerr = (s.crcerr + 1) % 2 ^ s.cfg.crcerrW ∧ Idle t ∧ t.input = rest
end

