-- ==== Sys2Proof/Laws/Checksum.lean ====
section
/-! SUPPORT. How the checksums of a sequence grow by one byte (spec 40_checksum.md R100, R105). -/

namespace Sys2Proof.Machine

theorem zero_xor_byte (b : Byte) : (0 : Byte) ^^^ b = b := BitVec.zero_xor

@[simp] theorem crc8_nil (c : Byte) : crc8 c [] = c := rfl

@[simp] theorem crc8_cons (c b : Byte) (bs : List Byte) : crc8 c (b :: bs) = crc8 (crcStep c b) bs := rfl

theorem crc8_append (c : Byte) (x y : List Byte) : crc8 c (x ++ y) = crc8 (crc8 c x) y := List.foldl_append

/-- The step does not see its two operands apart. -/
theorem crcStep_xor (crc b : Byte) : crcStep crc b = crcStep 0 (crc ^^^ b) := by
  rw [crcStep, crcStep, zero_xor_byte]

theorem xor8_foldl (c : Byte) (bs : List Byte) : bs.foldl (fun a b => a ^^^ b) c = c ^^^ xor8 bs := by
  induction bs generalizing c with
  | nil => exact BitVec.xor_zero.symm
  | cons b bs ih => rw [xor8, List.foldl_cons, List.foldl_cons, ih, ih (0 ^^^ b), zero_xor_byte, BitVec.xor_assoc]

@[simp] theorem xor8_nil : xor8 [] = 0 := rfl

theorem xor8_cons (b : Byte) (bs : List Byte) : xor8 (b :: bs) = b ^^^ xor8 bs := by
  rw [xor8, List.foldl_cons, xor8_foldl, zero_xor_byte]

theorem xor8_append (x y : List Byte) : xor8 (x ++ y) = xor8 x ^^^ xor8 y := by
  rw [xor8, List.foldl_append, xor8_foldl]; rfl

end Sys2Proof.Machine
end

