-- ==== Sys2Proof/Laws/Decode.lean ====
section
/-! SUPPORT. What the selector table does in each decoder state: which row takes a byte (spec 30_encoding.md R84, R85). -/

namespace Sys2Proof

@[simp] theorem selState_selWord (st : DecState) (b : Byte) : selState (selWord st b) = st := by
  apply BitVec.eq_of_toNat_eq
  simp only [selState, selWord, BitVec.extractLsb'_toNat, BitVec.toNat_append, ← Nat.shiftLeft_add_eq_or_of_lt b.isLt]
  have := st.isLt; have := b.isLt
  rw [Nat.shiftLeft_eq, Nat.shiftRight_eq_div_pow]; omega

@[simp] theorem selByte_selWord (st : DecState) (b : Byte) : selByte (selWord st b) = b := by
  apply BitVec.eq_of_toNat_eq
  simp only [selByte, selWord, BitVec.extractLsb'_toNat, BitVec.toNat_append, ← Nat.shiftLeft_add_eq_or_of_lt b.isLt]
  have := st.isLt; have := b.isLt
  rw [Nat.shiftLeft_eq, Nat.shiftRight_eq_div_pow]; omega

theorem selWord_selState_selByte (v : BitVec 13) : selWord (selState v) (selByte v) = v := by
  apply BitVec.eq_of_toNat_eq
  have hb := (selByte v).isLt
  simp only [selWord, BitVec.toNat_append, ← Nat.shiftLeft_add_eq_or_of_lt hb]
  simp only [selState, selByte, BitVec.extractLsb'_toNat]
  have := v.isLt
  rw [Nat.shiftLeft_eq, Nat.shiftRight_eq_div_pow, Nat.shiftRight_eq_div_pow]; omega

/-- A row applies when its state bits and its byte bits both match. -/
theorem row_applies (st : DecState) (b : Byte) (m p : BitVec 13) :
    (selWord st b &&& m == p) = ((st &&& selState m == selState p) && (b &&& selByte m == selByte p)) := by
  have hm : selWord st b &&& m = selWord (st &&& selState m) (b &&& selByte m) := by
    conv_lhs => rw [← selWord_selState_selByte m]
    apply BitVec.eq_of_getLsbD_eq
    intro i hi
    simp only [selWord, BitVec.getLsbD_and, BitVec.getLsbD_append]
    split <;> simp
  rw [hm, Bool.eq_iff_iff]
  simp only [beq_iff_eq, Bool.and_eq_true]
  constructor
  · rintro rfl; simp
  · rintro ⟨h1, h2⟩; rw [h1, h2, selWord_selState_selByte]

/-- The byte bits of a literal of the table. -/
theorem selByte_lit (n : Nat) : selByte (BitVec.ofNat 13 n) = BitVec.ofNat 8 n := by
  apply BitVec.eq_of_toNat_eq
  simp only [selByte, BitVec.extractLsb'_toNat, BitVec.toNat_ofNat]
  omega

/-- The state bits of a literal of the table. -/
theorem selState_lit (n : Nat) : selState (BitVec.ofNat 13 n) = BitVec.ofNat 5 (n / 256) := by
  apply BitVec.eq_of_toNat_eq
  simp only [selState, BitVec.extractLsb'_toNat, BitVec.toNat_ofNat, Nat.shiftRight_eq_div_pow]
  omega

theorem and_byteMask (b : Byte) : b &&& 0xFF#8 = b := BitVec.and_allOnes

/-! ### The row that takes a byte in each state -/

theorem decodeSel_idle (b : Byte) :
    decodeSel (selWord DecState.idle b) = some (if b = 0x24 then .idleSync else .idleDiscard b) := by
  simp only [decodeSel, selTable, row_applies, DecState.idle]
  split_ifs <;> simp_all [selState_lit, selByte_lit, and_byteMask]

theorem decodeSel_protoIdentifier (b : Byte) :
    decodeSel (selWord DecState.protoIdentifier b) =
      some (if b = 0x4D then .protoM else if b = 0x58 then .protoX else .protoBad b) := by
  simp only [decodeSel, selTable, row_applies, DecState.protoIdentifier]
  split_ifs <;> simp_all [selState_lit, selByte_lit, and_byteMask]

theorem decodeSel_directionV1 (b : Byte) :
    decodeSel (selWord DecState.directionV1 b) =
      some (if b = 0x3E then .dirV1From else if b = 0x3C then .dirV1To else if b = 0x21 then .dirV1Unsup
        else .dirV1Other b) := by
  simp only [decodeSel, selTable, row_applies, DecState.directionV1]
  split_ifs <;> simp_all [selState_lit, selByte_lit, and_byteMask]

theorem decodeSel_directionV2 (b : Byte) :
    decodeSel (selWord DecState.directionV2 b) =
      some (if b = 0x3E then .dirV2From else if b = 0x3C then .dirV2To else if b = 0x21 then .dirV2Unsup
        else .dirV2Other b) := by
  simp only [decodeSel, selTable, row_applies, DecState.directionV2]
  split_ifs <;> simp_all [selState_lit, selByte_lit, and_byteMask]

theorem decodeSel_flagV2 (b : Byte) : decodeSel (selWord DecState.flagV2 b) = some (.flagV2 b) := by
  simp only [decodeSel, selTable, row_applies, DecState.flagV2]
  simp [selState_lit, selByte_lit]

theorem decodeSel_payloadLengthV1 (b : Byte) :
    decodeSel (selWord DecState.payloadLengthV1 b) = some (if b = 0xFF then .lenV1Jumbo else .lenV1 b) := by
  simp only [decodeSel, selTable, row_applies, DecState.payloadLengthV1]
  split_ifs <;> simp_all [selState_lit, selByte_lit, and_byteMask]

theorem decodeSel_payloadLengthJumboLow (b : Byte) :
    decodeSel (selWord DecState.payloadLengthJumboLow b) = some (.jlenLo b) := by
  simp only [decodeSel, selTable, row_applies, DecState.payloadLengthJumboLow]
  simp [selState_lit, selByte_lit]

theorem decodeSel_payloadLengthJumboHigh (b : Byte) :
    decodeSel (selWord DecState.payloadLengthJumboHigh b) = some (.jlenHi b) := by
  simp only [decodeSel, selTable, row_applies, DecState.payloadLengthJumboHigh]
  simp [selState_lit, selByte_lit]

theorem decodeSel_payloadLengthV2Low (b : Byte) :
    decodeSel (selWord DecState.payloadLengthV2Low b) = some (.lenV2Lo b) := by
  simp only [decodeSel, selTable, row_applies, DecState.payloadLengthV2Low]
  simp [selState_lit, selByte_lit]

theorem decodeSel_payloadLengthV2High (b : Byte) :
    decodeSel (selWord DecState.payloadLengthV2High b) = some (.lenV2Hi b) := by
  simp only [decodeSel, selTable, row_applies, DecState.payloadLengthV2High]
  simp [selState_lit, selByte_lit]

theorem decodeSel_codeV1 (b : Byte) : decodeSel (selWord DecState.codeV1 b) = some (.codeV1 b) := by
  simp only [decodeSel, selTable, row_applies, DecState.codeV1]
  simp [selState_lit, selByte_lit]

theorem decodeSel_codeJumboV1 (b : Byte) : decodeSel (selWord DecState.codeJumboV1 b) = some (.codeJumboV1 b) := by
  simp only [decodeSel, selTable, row_applies, DecState.codeJumboV1]
  simp [selState_lit, selByte_lit]

theorem decodeSel_codeV2Low (b : Byte) : decodeSel (selWord DecState.codeV2Low b) = some (.codeV2Lo b) := by
  simp only [decodeSel, selTable, row_applies, DecState.codeV2Low]
  simp [selState_lit, selByte_lit]

theorem decodeSel_codeV2High (b : Byte) : decodeSel (selWord DecState.codeV2High b) = some (.codeV2Hi b) := by
  simp only [decodeSel, selTable, row_applies, DecState.codeV2High]
  simp [selState_lit, selByte_lit]

theorem decodeSel_payloadV1 (b : Byte) : decodeSel (selWord DecState.payloadV1 b) = some (.payloadV1 b) := by
  simp only [decodeSel, selTable, row_applies, DecState.payloadV1]
  simp [selState_lit, selByte_lit]

theorem decodeSel_payloadV2 (b : Byte) : decodeSel (selWord DecState.payloadV2 b) = some (.payloadV2 b) := by
  simp only [decodeSel, selTable, row_applies, DecState.payloadV2]
  simp [selState_lit, selByte_lit]

theorem decodeSel_checksumV1 (b : Byte) : decodeSel (selWord DecState.checksumV1 b) = some (.checksumV1 b) := by
  simp only [decodeSel, selTable, row_applies, DecState.checksumV1]
  simp [selState_lit, selByte_lit]

theorem decodeSel_checksumV2 (b : Byte) : decodeSel (selWord DecState.checksumV2 b) = some (.checksumV2 b) := by
  simp only [decodeSel, selTable, row_applies, DecState.checksumV2]
  simp [selState_lit, selByte_lit]

/-- The reserved states (30_encoding.md R88), written as the fields of their rows. -/
theorem decodeSel_badState1819 (lo : BitVec 1) (b : Byte) :
    decodeSel (selWord (9#4 ++ lo) b) = some (.badState1819 lo b) := by
  have h : lo = 0 ∨ lo = 1 := by revert lo; decide
  rcases h with rfl | rfl <;> simp only [decodeSel, selTable, row_applies] <;>
    simp [selState_lit, selByte_lit]

theorem decodeSel_badState2023 (lo : BitVec 2) (b : Byte) :
    decodeSel (selWord (5#3 ++ lo) b) = some (.badState2023 lo b) := by
  have h : lo = 0 ∨ lo = 1 ∨ lo = 2 ∨ lo = 3 := by revert lo; decide
  rcases h with rfl | rfl | rfl | rfl <;> simp only [decodeSel, selTable, row_applies] <;>
    simp [selState_lit, selByte_lit]

theorem decodeSel_badState2431 (lo : BitVec 3) (b : Byte) :
    decodeSel (selWord (3#2 ++ lo) b) = some (.badState2431 lo b) := by
  have h : lo = 0 ∨ lo = 1 ∨ lo = 2 ∨ lo = 3 ∨ lo = 4 ∨ lo = 5 ∨ lo = 6 ∨ lo = 7 := by revert lo; decide
  rcases h with rfl | rfl | rfl | rfl | rfl | rfl | rfl | rfl <;> simp only [decodeSel, selTable, row_applies] <;>
    simp [selState_lit, selByte_lit]

/-- A decoder state is one of the eighteen legal ones or is reserved. -/
theorem decState_cases (st : DecState) :
    st = DecState.idle ∨ st = DecState.protoIdentifier ∨ st = DecState.directionV1 ∨ st = DecState.directionV2 ∨
    st = DecState.flagV2 ∨ st = DecState.payloadLengthV1 ∨ st = DecState.payloadLengthJumboLow ∨
    st = DecState.payloadLengthJumboHigh ∨ st = DecState.payloadLengthV2Low ∨ st = DecState.payloadLengthV2High ∨
    st = DecState.codeV1 ∨ st = DecState.codeJumboV1 ∨ st = DecState.codeV2Low ∨ st = DecState.codeV2High ∨
    st = DecState.payloadV1 ∨ st = DecState.payloadV2 ∨ st = DecState.checksumV1 ∨ st = DecState.checksumV2 ∨
    (∃ lo : BitVec 1, st = 9#4 ++ lo) ∨ (∃ lo : BitVec 2, st = 5#3 ++ lo) ∨
    (∃ lo : BitVec 3, st = 3#2 ++ lo) := by
  revert st; decide

/-- Some row takes every selector word, and it is a row of the DECODER table: performing it is a row's meaning. -/
theorem decodeSel_isSome (v : BitVec 13) : (decodeSel v).isSome = true := by
  rw [← selWord_selState_selByte v]
  generalize selByte v = b
  rcases decState_cases (selState v) with h | h | h | h | h | h | h | h | h | h | h | h | h | h | h | h | h | h | h | h | h
  all_goals first | rw [h] | (obtain ⟨lo, h⟩ := h; rw [h])
  all_goals
    simp only [decodeSel_idle, decodeSel_protoIdentifier, decodeSel_directionV1, decodeSel_directionV2, decodeSel_flagV2,
      decodeSel_payloadLengthV1, decodeSel_payloadLengthJumboLow, decodeSel_payloadLengthJumboHigh,
      decodeSel_payloadLengthV2Low, decodeSel_payloadLengthV2High, decodeSel_codeV1, decodeSel_codeJumboV1,
      decodeSel_codeV2Low, decodeSel_codeV2High, decodeSel_payloadV1, decodeSel_payloadV2, decodeSel_checksumV1,
      decodeSel_checksumV2, decodeSel_badState1819, decodeSel_badState2023, decodeSel_badState2431, Option.isSome_some]

end Sys2Proof
end

