-- ==== Sys2Proof/Laws/Operands.lean ====
section
/-! SUPPORT. What the operand readers answer (spec 30_encoding.md R83), and the little-endian halves of a 16-bit field
(20_memory.md R53), the clamp and the invalid-frame counter. -/

namespace Sys2Proof

/-! ### Operand readers -/

theorem takeBits_num (op : BitVec 4) {n : Nat} (v : BitVec n) (rest : List Operand) :
    takeBits op n (.num v.toNat :: rest) = .ok (v, rest) := by
  simp [takeBits, v.isLt]

theorem takeBits_misfit (op : BitVec 4) {n v : Nat} (h : 2 ^ n ≤ v) (rest : List Operand) :
    takeBits op n (.num v :: rest) = .error (.badOperand (.num v)) := by
  rw [takeBits, if_neg (Nat.not_lt.mpr h)]

theorem takeNat_num (op : BitVec 4) (v : Nat) (rest : List Operand) :
    takeNat op (.num v :: rest) = .ok (v, rest) := rfl

theorem takeFlag_flagOperand (op : BitVec 4) (f : Bool) (rest : List Operand) :
    takeFlag op (flagOperand f :: rest) = .ok (f, rest) := by
  cases f <;> simp [takeFlag, takeBits, flagOperand]

theorem takeFlag_misfit (op : BitVec 4) {v : Nat} (h : 2 ≤ v) (rest : List Operand) :
    takeFlag op (.num v :: rest) = .error (.badOperand (.num v)) := by
  rw [takeFlag, takeBits_misfit op (n := 1) h]

theorem map_ofNat_toNat (bs : List Byte) : (bs.map BitVec.toNat).map (BitVec.ofNat 8) = bs := by
  induction bs with
  | nil => rfl
  | cons b bs ih => simp only [List.map_cons, ih, BitVec.ofNat_toNat, BitVec.setWidth_eq]

theorem takeBytes_bytesOperand (op : BitVec 4) (bs : List Byte) (rest : List Operand) :
    takeBytes op (bytesOperand bs :: rest) = .ok (bs, rest) := by
  have h : (bs.map BitVec.toNat).all (fun v => decide (v < 256)) = true := by
    simp only [List.all_map, List.all_eq_true, Function.comp_apply, decide_eq_true_eq]
    exact fun x _ => x.isLt
  simp only [takeBytes, bytesOperand, h, if_true, map_ofNat_toNat]

theorem takeBytes_misfit (op : BitVec 4) {l : List Nat} (h : ∃ x ∈ l, 256 ≤ x) (rest : List Operand) :
    takeBytes op (.bytes l :: rest) = .error (.badOperand (.bytes l)) := by
  rw [takeBytes, if_neg]
  simpa using h

/-! ### The halves of a 16-bit field -/

namespace Machine

theorem loByte_zext16 (b : Byte) : loByte (zext16 b) = b := by
  simp [loByte, zext16]

theorem hiByte_zext16 (b : Byte) : hiByte (zext16 b) = 0 := by
  apply BitVec.eq_of_toNat_eq
  simp [hiByte, zext16, Nat.shiftRight_eq_div_pow]
  omega

theorem toNat_joinHi {v : Half} (h : hiByte v = 0) (b : Byte) : (joinHi v b).toNat = v.toNat + 256 * b.toNat := by
  have hv : v.toNat < 2 ^ 8 := by
    have := congrArg BitVec.toNat h
    simp [hiByte, Nat.shiftRight_eq_div_pow] at this
    omega
  have hb := b.isLt
  have e : (zext16 b <<< 8).toNat = b.toNat <<< 8 := by
    simp only [zext16, BitVec.toNat_shiftLeft, BitVec.toNat_setWidth, Nat.shiftLeft_eq]
    omega
  rw [joinHi, BitVec.toNat_or, e, Nat.or_comm, ← Nat.shiftLeft_add_eq_or_of_lt hv, Nat.shiftLeft_eq]
  omega

theorem loByte_joinHi {v : Half} (h : hiByte v = 0) (b : Byte) : loByte (joinHi v b) = loByte v := by
  apply BitVec.eq_of_toNat_eq
  simp only [loByte, BitVec.toNat_setWidth, toNat_joinHi h]
  omega

theorem hiByte_joinHi {v : Half} (h : hiByte v = 0) (b : Byte) : hiByte (joinHi v b) = b := by
  have hv : v.toNat < 2 ^ 8 := by
    have := congrArg BitVec.toNat h
    simp [hiByte, Nat.shiftRight_eq_div_pow] at this
    omega
  apply BitVec.eq_of_toNat_eq
  have hb := b.isLt
  simp only [hiByte, BitVec.toNat_setWidth, BitVec.toNat_ushiftRight, toNat_joinHi h, Nat.shiftRight_eq_div_pow]
  omega

/-- A received field is the one sent (R53). -/
theorem joinHi_loByte_hiByte (v : Half) : joinHi (zext16 (loByte v)) (hiByte v) = v := by
  apply BitVec.eq_of_toNat_eq
  have := v.isLt
  rw [toNat_joinHi (hiByte_zext16 _)]
  simp only [loByte, hiByte, zext16, BitVec.toNat_setWidth, BitVec.toNat_ushiftRight, Nat.shiftRight_eq_div_pow]
  omega

/-- A field whose high byte is zero is its low byte. -/
theorem zext16_loByte {v : Half} (h : hiByte v = 0) : zext16 (loByte v) = v := by
  have := congrArg BitVec.toNat h
  simp [hiByte, Nat.shiftRight_eq_div_pow] at this
  apply BitVec.eq_of_toNat_eq
  have := v.isLt
  simp only [loByte, zext16, BitVec.toNat_setWidth]
  omega

theorem toNat_lenHalf {bs : List Byte} (h : bs.length ≤ 65535) : (lenHalf bs).toNat = bs.length := by
  simp only [lenHalf, BitVec.toNat_ofNat]
  omega

/-! ### Bounds -/

theorem clamp_bounds {lo hi : Nat} (h : lo ≤ hi) (x : Nat) : lo ≤ clamp x lo hi ∧ clamp x lo hi ≤ hi := by
  simp only [clamp]
  omega

/-- The counter keeps its width. -/
theorem crcerrAfter_lt {w c : Nat} (h : c < 2 ^ w) (valid : Bool) : crcerrAfter w c valid < 2 ^ w := by
  cases valid
  · exact Nat.mod_lt _ (Nat.two_pow_pos w)
  · exact h

end Machine

end Sys2Proof
end

