-- ==== Sys2Proof/Laws/Encoder.lean ====
section
/-! SUPPORT. When the encoder answers a frame, and which one (spec 41_encoder.md R120 to R123). -/

namespace Sys2Proof.Machine

theorem frameV1_of_fits {code : Half} {payload : List Byte} (hc : code.toNat ≤ 254) (hp : payload.length ≤ 254) :
    frameV1 code payload = .ok (wireV1 toDevice (loByte code) payload) := if_neg (by simp [Config.v1CodeMax, Config.v1PayloadMax]; omega)

theorem frameV1_of_overflow {code : Half} {payload : List Byte} (h : 254 < code.toNat ∨ 254 < payload.length) :
    frameV1 code payload = .error (.encodeOverflow code payload.length) := if_pos h

theorem frameV2_of_fits (code : Half) {payload : List Byte} (hp : payload.length ≤ 65535) :
    frameV2 code payload = .ok (wireV2 toDevice 0 code payload) := if_neg (by simp [Config.v2PayloadMax]; omega)

theorem frameV2_of_overflow (code : Half) {payload : List Byte} (h : 65535 < payload.length) :
    frameV2 code payload = .error (.encodeOverflow code payload.length) := if_pos h

theorem frameOf_of_le {code : Half} (hc : code.toNat ≤ 254) (payload : List Byte) :
    frameOf code payload = frameV1 code payload := if_pos hc

theorem frameOf_of_gt {code : Half} (hc : 254 < code.toNat) (payload : List Byte) :
    frameOf code payload = frameV2 code payload := if_neg (by simp [Config.v1CodeMax]; omega)

/-- A V2 frame answered is the wire format, on the domain. -/
theorem frameV2_eq_ok {code : Half} {payload bs : List Byte} (h : frameV2 code payload = .ok bs) :
    payload.length ≤ 65535 ∧ bs = wireV2 toDevice 0 code payload := by
  rw [frameV2] at h
  split_ifs at h with hp
  cases h
  exact ⟨Nat.not_lt.mp hp, rfl⟩

/-- A V1 frame answered is the wire format, on the domain. -/
theorem frameV1_eq_ok {code : Half} {payload bs : List Byte} (h : frameV1 code payload = .ok bs) :
    code.toNat ≤ 254 ∧ payload.length ≤ 254 ∧ bs = wireV1 toDevice (loByte code) payload := by
  rw [frameV1] at h
  split_ifs at h with hp
  cases h
  rw [not_or, Nat.not_lt, Nat.not_lt] at hp
  exact ⟨hp.1, hp.2, rfl⟩

/-- A code of at most 254 is its low byte. -/
theorem zext16_loByte_of_le {code : Half} (h : code.toNat ≤ 254) : zext16 (loByte code) = code := by
  apply zext16_loByte
  apply BitVec.eq_of_toNat_eq
  change (hiByte code).toNat = 0
  simp only [hiByte, BitVec.toNat_setWidth, BitVec.toNat_ushiftRight, Nat.shiftRight_eq_div_pow]
  omega

theorem length_wireV1 (dir code : Byte) (payload : List Byte) : (wireV1 dir code payload).length = payload.length + 6 := by
  simp [wireV1]

theorem length_wireV1Jumbo (dir code : Byte) (payload : List Byte) :
    (wireV1Jumbo dir code payload).length = payload.length + 8 := by
  simp [wireV1Jumbo]

theorem length_wireV2 (dir flag : Byte) (code : Half) (payload : List Byte) :
    (wireV2 dir flag code payload).length = payload.length + 9 := by
  simp [wireV2]

end Sys2Proof.Machine
end

