-- ==== Sys2Proof/Laws/Tables.lean ====
section
/-! SUPPORT. The tables of LINKENG: `WR` keeps its canonical form (spec 10_state.md R37), `PEND` under finding, firing and
matching (43_dispatcher.md R205, R210, R211), and the payload buffer keeps within its capacity (20_memory.md R52). -/

namespace Sys2Proof.Machine

/-! ### `WR` -/

theorem mem_wrInsert {r x : WriteRec} {l : List WriteRec} (h : x ∈ wrInsert r l) : x = r ∨ x ∈ l := by
  induction l with
  | nil => exact .inl (List.mem_singleton.mp h)
  | cons y ys ih =>
    rw [wrInsert] at h
    split_ifs at h
    · exact List.mem_cons.mp h
    · exact (List.mem_cons.mp h).imp id (List.mem_cons_of_mem y)
    · rcases List.mem_cons.mp h with rfl | h
      · exact .inr List.mem_cons_self
      · exact (ih h).imp id (List.mem_cons_of_mem y)

theorem mem_wrInsert_self (r : WriteRec) (l : List WriteRec) : r ∈ wrInsert r l := by
  induction l with
  | nil => exact List.mem_singleton_self r
  | cons y ys ih =>
    rw [wrInsert]
    split_ifs
    · exact List.mem_cons_self
    · exact List.mem_cons_self
    · exact List.mem_cons_of_mem y ih

/-- Writing a key keeps the canonical form. -/
theorem wrInsert_sorted (r : WriteRec) {l : List WriteRec} (h : wrSorted l) : wrSorted (wrInsert r l) := by
  induction l with
  | nil => exact List.pairwise_singleton _ r
  | cons y ys ih =>
    obtain ⟨hy, hys⟩ := List.pairwise_cons.mp h
    rw [wrInsert]
    split_ifs with h1 h2
    · refine List.pairwise_cons.mpr ⟨fun z hz => ?_, h⟩
      rcases List.mem_cons.mp hz with rfl | hz
      · exact h1
      · exact h1.trans (hy z hz)
    · exact List.pairwise_cons.mpr ⟨fun z hz => h2 ▸ hy z hz, hys⟩
    · refine List.pairwise_cons.mpr ⟨fun z hz => ?_, ih hys⟩
      rcases mem_wrInsert hz with rfl | hz
      · omega
      · exact hy z hz

/-- A key above every other goes to the end. -/
theorem wrInsert_eq_append {r : WriteRec} {l : List WriteRec} (h : ∀ x ∈ l, x.wid < r.wid) :
    wrInsert r l = l ++ [r] := by
  induction l with
  | nil => rfl
  | cons y ys ih =>
    have := h y List.mem_cons_self
    rw [wrInsert, if_neg (by omega), if_neg (by omega), ih fun x hx => h x (List.mem_cons_of_mem y hx)]
    rfl

/-- Removing a key keeps the canonical form. -/
theorem wrErase_sorted (wid : Nat) {l : List WriteRec} (h : wrSorted l) : wrSorted (wrErase wid l) :=
  h.sublist List.filter_sublist

theorem mem_wrErase {wid : Nat} {r : WriteRec} {l : List WriteRec} : r ∈ wrErase wid l ↔ r ∈ l ∧ r.wid ≠ wid := by
  simp [wrErase]

/-- A removed key is found no more. -/
theorem wrFind_wrErase (wid : Nat) (l : List WriteRec) : wrFind wid (wrErase wid l) = none := by
  simp [wrFind, wrErase]

/-- What a found record is. -/
theorem wrFind_some {wid : Nat} {r : WriteRec} {l : List WriteRec} (h : wrFind wid l = some r) : r ∈ l ∧ r.wid = wid :=
  ⟨List.mem_of_find?_eq_some h, by simpa using List.find?_some h⟩

/-- In the canonical form a record is found under its own key. -/
theorem wrFind_of_mem {r : WriteRec} {l : List WriteRec} (h : wrSorted l) (hr : r ∈ l) : wrFind r.wid l = some r := by
  induction l with
  | nil => cases hr
  | cons y ys ih =>
    obtain ⟨hy, hys⟩ := List.pairwise_cons.mp h
    rcases List.mem_cons.mp hr with rfl | hr
    · simp [wrFind]
    · rw [wrFind, List.find?_cons_of_neg (by simpa using (hy r hr).ne)]
      exact ih hys hr

/-- In the canonical form, found under a key is the same as being there with that key. -/
theorem wrFind_eq_some_iff {wid : Nat} {r : WriteRec} {l : List WriteRec} (h : wrSorted l) :
    wrFind wid l = some r ↔ r ∈ l ∧ r.wid = wid :=
  ⟨wrFind_some, fun ⟨hr, hw⟩ => hw ▸ wrFind_of_mem h hr⟩

/-- The key written gives the record written. -/
theorem wrFind_wrInsert_self (r : WriteRec) (l : List WriteRec) : wrFind r.wid (wrInsert r l) = some r := by
  induction l with
  | nil => simp [wrFind, wrInsert]
  | cons y ys ih =>
    rw [wrInsert]
    split_ifs with h1 h2
    · simp [wrFind]
    · simp [wrFind]
    · rw [wrFind, List.find?_cons_of_neg (by simpa using Ne.symm h2)]
      exact ih

/-- Every other key gives what it gave. -/
theorem wrFind_wrInsert_of_ne {wid : Nat} {r : WriteRec} (h : wid ≠ r.wid) (l : List WriteRec) :
    wrFind wid (wrInsert r l) = wrFind wid l := by
  induction l with
  | nil => simp [wrFind, wrInsert, h.symm]
  | cons y ys ih =>
    rw [wrInsert]
    split_ifs with h1 h2
    · simp [wrFind, List.find?_cons, h.symm]
    · simp [wrFind, h.symm, ← h2]
    · simp only [wrFind, List.find?_cons] at ih ⊢
      rw [ih]

theorem wrFind_eq_none {wid : Nat} {l : List WriteRec} : wrFind wid l = none ↔ ∀ r ∈ l, r.wid ≠ wid := by
  simp [wrFind]

/-! ### `PEND` -/

theorem pendFind_some {tag : Nat} {e : Pending} {l : List Pending} (h : pendFind tag l = some e) : e ∈ l ∧ e.tag = tag :=
  ⟨List.mem_of_find?_eq_some h, by simpa using List.find?_some h⟩

theorem pendFind_eq_none {tag : Nat} {l : List Pending} : pendFind tag l = none ↔ ∀ e ∈ l, e.tag ≠ tag := by
  simp [pendFind]

/-- The first entry of the tag is the one found. -/
theorem pendFind_append {tag : Nat} {pre post : List Pending} {e : Pending} (he : e.tag = tag)
    (hpre : ∀ x ∈ pre, x.tag ≠ tag) : pendFind tag (pre ++ e :: post) = some e := by
  rw [pendFind, List.find?_append, List.find?_eq_none.mpr (by simpa using hpre), List.find?_cons_of_pos (by simpa using he)]
  rfl

theorem pendHasCode_iff {code : Half} {l : List Pending} : pendHasCode code l = true ↔ ∃ e ∈ l, e.code = code := by
  simp [pendHasCode]

theorem pendHasCode_eq_false {code : Half} {l : List Pending} : pendHasCode code l = false ↔ ∀ e ∈ l, e.code ≠ code := by
  simp [pendHasCode]

/-- Firing marks the first entry of the tag and leaves every other entry. -/
theorem pendFire_append {tag : Nat} {pre post : List Pending} {e : Pending} (he : e.tag = tag)
    (hpre : ∀ x ∈ pre, x.tag ≠ tag) :
    pendFire tag (pre ++ e :: post) = pre ++ { e with timer := .fired } :: post := by
  induction pre with
  | nil => rw [List.nil_append, pendFire, if_pos he]; rfl
  | cons x xs ih =>
    rw [List.cons_append, pendFire, if_neg (hpre x List.mem_cons_self),
      ih fun y hy => hpre y (List.mem_cons_of_mem x hy)]
    rfl

/-- Where a tag is found, the table splits at its first entry. -/
theorem pendFind_split {tag : Nat} {e : Pending} {l : List Pending} (h : pendFind tag l = some e) :
    ∃ pre post, l = pre ++ e :: post ∧ e.tag = tag ∧ ∀ x ∈ pre, x.tag ≠ tag := by
  obtain ⟨he, pre, post, rfl, hpre⟩ := List.find?_eq_some_iff_append.mp h
  exact ⟨pre, post, rfl, by simpa using he, fun x hx => by simpa using hpre x hx⟩

/-- FIRST removes the oldest entry of the code and completes it (43_dispatcher.md R210). -/
theorem matchFirst_append {fr : Frame} {pre post : List Pending} {e : Pending} (he : e.code = fr.code)
    (hpre : ∀ x ∈ pre, x.code ≠ fr.code) : matchFirst fr (pre ++ e :: post) = (completionOf fr e, pre ++ post) := by
  induction pre with
  | nil => rw [List.nil_append, matchFirst, if_pos he]; rfl
  | cons x xs ih =>
    rw [List.cons_append, matchFirst, if_neg (hpre x List.mem_cons_self),
      ih fun y hy => hpre y (List.mem_cons_of_mem x hy)]
    rfl

/-- FIRST does nothing where no entry has the code. -/
theorem matchFirst_of_no_code {fr : Frame} {l : List Pending} (h : ∀ x ∈ l, x.code ≠ fr.code) :
    matchFirst fr l = ([], l) := by
  induction l with
  | nil => rfl
  | cons x xs ih =>
    rw [matchFirst, if_neg (h x List.mem_cons_self), ih fun y hy => h y (List.mem_cons_of_mem x hy)]

/-- Whatever the policy, matching only removes entries. -/
theorem matchPend_sublist (p : MatchPolicy) (fr : Frame) (l : List Pending) : (matchPend p fr l).2.Sublist l := by
  cases p with
  | all => exact List.filter_sublist
  | first =>
    induction l with
    | nil => exact List.Sublist.slnil
    | cons x xs ih =>
      simp only [matchPend, matchFirst] at ih ⊢
      split_ifs
      · exact List.sublist_cons_self x xs
      · exact ih.cons_cons x

/-- A COMPLETE goes out for a removed entry of a valid frame, or of one that asked for invalid ones (43_dispatcher.md
R212). -/
theorem mem_completionOf {fr : Frame} {e : Pending} {o : Output} (h : o ∈ completionOf fr e) :
    (fr.valid = true ∨ e.ioe = true) ∧ o = .complete e.tag (.frame fr.code fr.payload fr.valid) := by
  rw [completionOf] at h
  split_ifs at h with hc
  · exact ⟨by simpa using hc, List.mem_singleton.mp h⟩
  · cases h

/-- Whatever the policy, every output of a match is the COMPLETE of an entry of the frame's code. -/
theorem mem_matchPend {p : MatchPolicy} {fr : Frame} {l : List Pending} {o : Output} (h : o ∈ (matchPend p fr l).1) :
    ∃ e ∈ l, e.code = fr.code ∧ (fr.valid = true ∨ e.ioe = true) ∧
      o = .complete e.tag (.frame fr.code fr.payload fr.valid) := by
  cases p with
  | all =>
    obtain ⟨e, he, ho⟩ := List.mem_flatMap.mp h
    obtain ⟨he, hc⟩ := List.mem_filter.mp he
    exact ⟨e, he, by simpa using hc, mem_completionOf ho⟩
  | first =>
    rw [matchPend] at h
    induction l with
    | nil => cases h
    | cons x xs ih =>
      rw [matchFirst] at h
      split_ifs at h with hc
      · exact ⟨x, List.mem_cons_self, hc, mem_completionOf h⟩
      · obtain ⟨e, he, r⟩ := ih h
        exact ⟨e, List.mem_cons_of_mem x he, r⟩

/-! ### The payload buffer -/

/-- An append stays within the capacity, which it does not change. -/
theorem bufAppend_length_le {s t : State} {b : Byte} (h : s.bufAppend b = some t) :
    t.buf = s.buf ++ [b] ∧ t.cap = s.cap ∧ t.buf.length ≤ t.cap.toNat := by
  rw [State.bufAppend] at h
  split at h
  · next hlt =>
    cases h
    exact ⟨rfl, rfl, by simpa using hlt⟩
  · cases h

/-- A full buffer takes nothing. -/
theorem bufAppend_eq_none {s : State} {b : Byte} : s.bufAppend b = none ↔ s.cap.toNat ≤ s.buf.length := by
  simp [State.bufAppend]

/-- The power-on tables have their canonical form. -/
theorem powerOn_wrSorted (p : Params) : wrSorted (State.powerOn p).wr := List.Pairwise.nil

end Sys2Proof.Machine
end

