-- ==== Sys2Proof/Laws/Events.lean ====
section
/-! SUPPORT. Everything each event but FEED can do, said once per event (spec 43_dispatcher.md, 41_encoder.md). -/

namespace Sys2Proof.Machine

/-- A queued request is appended, and transmitted unless it is an empty request for a code already pending (R202,
R203). -/
theorem queueRequest_cases (s : State) (code : Half) (payload obuf : List Byte) (tag : Nat) (ioe : Bool) :
    ((payload ≠ [] ∨ ∀ e ∈ s.pend, e.code ≠ code) ∧
      s.queueRequest code payload obuf tag ioe =
        (s.enqueue (newPending s code obuf tag ioe)).transmit .primary (newPending s code obuf tag ioe)) ∨
    (payload = [] ∧ (∃ e ∈ s.pend, e.code = code) ∧
      s.queueRequest code payload obuf tag ioe = s.enqueue (newPending s code obuf tag ioe)) := by
  rw [← pendHasCode_eq_false, ← pendHasCode_iff]
  unfold State.queueRequest
  by_cases h : payload ≠ [] ∨ pendHasCode code s.pend = false
  · exact .inl ⟨h, if_pos h⟩
  · exact .inr ⟨by simpa using (not_or.mp h).1, by simpa using (not_or.mp h).2, if_neg h⟩

/-- SEND (R201, R202). -/
theorem execSend_cases {code : Half} {payload : List Byte} {tag : Nat} {ioe : Bool} {s t : State}
    (h : execSend code payload tag ioe s = .next t) :
    ((s.connected = false ∨ s.offline = true) ∧ t = (s.emit (.complete tag .noData)).emit (.ret tag false)) ∨
    ∃ obuf, s.connected = true ∧ s.offline = false ∧ (∀ e ∈ s.pend, e.tag ≠ tag) ∧ frameOf code payload = .ok obuf ∧
      t = (s.queueRequest code payload obuf tag ioe).emit (.ret tag true) := by
  rw [execSend] at h
  split_ifs at h with hl hf
  · cases h
    exact .inl ⟨hl, rfl⟩
  · rw [not_or, Bool.not_eq_false, Bool.not_eq_true] at hl
    split at h <;> cases h
    next obuf ho =>
      exact .inr ⟨obuf, hl.1, hl.2, pendFind_eq_none.mp (by simpa using hf), ho, rfl⟩

/-- TIMER_FIRE (R205). -/
theorem execTimerFire_cases {tag : Nat} {s t : State} (h : execTimerFire tag s = .next t) :
    ∃ pre e post d, s.pend = pre ++ e :: post ∧ e.tag = tag ∧ (∀ x ∈ pre, x.tag ≠ tag) ∧ e.timer = .armed d ∧
      d ≤ s.now ∧ t = { s with pend := pre ++ { e with timer := .fired } :: post }.transmit .retry e := by
  rw [execTimerFire] at h
  split at h
  · cases h
  · next e he =>
    split at h
    · cases h
    · cases h
    · next d hd =>
      split_ifs at h with hn
      cases h
      obtain ⟨pre, post, hs, ht, hpre⟩ := pendFind_split he
      exact ⟨pre, e, post, d, hs, ht, hpre, hd, Nat.not_lt.mp hn, by rw [hs, pendFire_append ht hpre]⟩

/-- WRITE_DONE (R206, R207, R208). -/
theorem execWriteDone_cases {wid n : Nat} {s t : State} (h : execWriteDone wid n s = .next t) :
    ∃ r, wrFind wid s.wr = some r ∧ n ≤ r.n ∧
      ((r.kind = .primary ∧ n = r.n ∧
          t = { s with wr := wrErase wid s.wr, T := max Config.tMin (s.T - 1) }.emit (.sent r.tag)) ∨
       (r.kind = .primary ∧ n ≠ r.n ∧ t = { s with wr := wrErase wid s.wr }) ∨
       (r.kind = .retry ∧
          t = { s with wr := wrErase wid s.wr, T := clamp (s.now - r.tSend) Config.tMin Config.tMax })) := by
  rw [execWriteDone] at h
  split at h
  · cases h
  · next r hr =>
    split_ifs at h with hn
    refine ⟨r, hr, Nat.not_lt.mp hn, ?_⟩
    split at h <;> cases h
    · next hk =>
      by_cases he : n = r.n
      · exact .inl ⟨hk, he, if_pos he⟩
      · exact .inr (.inl ⟨hk, he, if_neg he⟩)
    · next hk => exact .inr (.inr ⟨hk, rfl⟩)

/-- LINK (R214). -/
theorem execLink_cases {c o : Bool} {s t : State} (h : execLink c o s = .next t) :
    (c = s.connected ∧ t = { s with connected := c, offline := o }) ∨
    (c ≠ s.connected ∧ t = { s with connected := c, offline := o }.resetLink) := by
  rw [execLink] at h
  by_cases hc : c = s.connected
  · rw [if_pos hc] at h
    cases h
    exact .inl ⟨hc, rfl⟩
  · rw [if_neg hc] at h
    cases h
    exact .inr ⟨hc, rfl⟩

/-- TICK (R215). -/
theorem execTick_cases {u : Nat} {s t : State} (h : execTick u s = .next t) : s.now ≤ u ∧ t = { s with now := u } := by
  rw [execTick] at h
  split_ifs at h with hu
  cases h
  exact ⟨Nat.not_lt.mp hu, rfl⟩

/-- The encoder events emit one VAL of bytes (41_encoder.md R120 to R123). -/
theorem emitFrame_cases {s t : State} {x : Except Refusal (List Byte)} (h : emitFrame s x = .next t) :
    ∃ bs, x = .ok bs ∧ t = s.emit (.val (.bytes bs)) := by
  cases x <;> cases h
  exact ⟨_, rfl, rfl⟩

/-- The computations: each emits one value and writes nothing else (40_checksum.md, 41_encoder.md). -/
def isValue : Instr → Bool
  | .crc8Step _ _ | .crc8 _ _ | .xor8 _ | .encodeV1 _ _ | .encodeV2 _ _ | .encode _ _ => true
  | _ => false

/-- The events of the opcode table, and the four things one can do beside SEND, TIMER_FIRE, WRITE_DONE and FEED: reset,
latch the link, tell the time, emit one VAL. -/
theorem exec_other_cases {i : Instr} {s t : State} (h : exec i s = .next t) :
    (∃ b, i = .feed b) ∨ (∃ code payload tag ioe, i = .send code payload tag ioe) ∨ (∃ tag, i = .timerFire tag) ∨
    (∃ wid n, i = .writeDone wid n) ∨ (i = .reset ∧ t = s.resetLink) ∨ (∃ c o, i = .link c o) ∨
    (∃ u, i = .tick u ∧ s.now ≤ u ∧ t = { s with now := u }) ∨ (isValue i = true ∧ ∃ v, t = s.emit (.val v)) ∨
    ∃ v, encode i = .sel v := by
  cases i
  case feed b => exact .inl ⟨b, rfl⟩
  case send code payload tag ioe => exact .inr (.inl ⟨code, payload, tag, ioe, rfl⟩)
  case timerFire tag => exact .inr (.inr (.inl ⟨tag, rfl⟩))
  case writeDone wid n => exact .inr (.inr (.inr (.inl ⟨wid, n, rfl⟩)))
  case reset =>
    cases h
    exact .inr (.inr (.inr (.inr (.inl ⟨rfl, rfl⟩))))
  case link c o => exact .inr (.inr (.inr (.inr (.inr (.inl ⟨c, o, rfl⟩)))))
  case tick u => exact .inr (.inr (.inr (.inr (.inr (.inr (.inl ⟨u, rfl, execTick_cases h⟩))))))
  case crc8Step | crc8 | xor8 =>
    cases h
    exact .inr (.inr (.inr (.inr (.inr (.inr (.inr (.inl ⟨rfl, _, rfl⟩)))))))
  case encodeV1 | encodeV2 | encode =>
    obtain ⟨bs, -, rfl⟩ := emitFrame_cases h
    exact .inr (.inr (.inr (.inr (.inr (.inr (.inr (.inl ⟨rfl, _, rfl⟩)))))))
  case reservedOp13 | reservedOp1415 => cases h
  all_goals exact .inr (.inr (.inr (.inr (.inr (.inr (.inr (.inr ⟨_, rfl⟩)))))))

end Sys2Proof.Machine
end

