-- ==== Sys2Proof/Laws/Feed.lean ====
section
/-! SUPPORT. What FEED does in each decoder state (spec 30_encoding.md R85): the selector table worked out once. -/

namespace Sys2Proof.Machine

/-- FEED performs the row the selector gives. -/
theorem execFeed_eq_performRow {s : State} {b : Byte} {i : Instr} (h : decodeSel (selWord s.state b) = some i) :
    execFeed b s = performRow i s := by
  simp only [execFeed, h]

theorem execFeed_idle (b : Byte) (s : State) (h : s.state = DecState.idle) :
    execFeed b s =
      if b = 0x24 then execIdleSync s else execIdleDiscard b s := by
  rw [execFeed_eq_performRow (h ▸ decodeSel_idle b)]
  split_ifs <;> rfl

theorem execFeed_protoIdentifier (b : Byte) (s : State) (h : s.state = DecState.protoIdentifier) :
    execFeed b s =
      if b = 0x4D then execProtoM s else if b = 0x58 then execProtoX s else execProtoBad b s := by
  rw [execFeed_eq_performRow (h ▸ decodeSel_protoIdentifier b)]
  split_ifs <;> rfl

theorem execFeed_directionV1 (b : Byte) (s : State) (h : s.state = DecState.directionV1) :
    execFeed b s =
      if b = 0x3E then execDirV1From s else if b = 0x3C then execDirV1To s else if b = 0x21 then execDirV1Unsup s
        else execDirV1Other b s := by
  rw [execFeed_eq_performRow (h ▸ decodeSel_directionV1 b)]
  split_ifs <;> rfl

theorem execFeed_directionV2 (b : Byte) (s : State) (h : s.state = DecState.directionV2) :
    execFeed b s =
      if b = 0x3E then execDirV2From s else if b = 0x3C then execDirV2To s else if b = 0x21 then execDirV2Unsup s
        else execDirV2Other b s := by
  rw [execFeed_eq_performRow (h ▸ decodeSel_directionV2 b)]
  split_ifs <;> rfl

theorem execFeed_flagV2 (b : Byte) (s : State) (h : s.state = DecState.flagV2) :
    execFeed b s =
      execFlagV2 b s := by
  rw [execFeed_eq_performRow (h ▸ decodeSel_flagV2 b)]
  rfl

theorem execFeed_payloadLengthV1 (b : Byte) (s : State) (h : s.state = DecState.payloadLengthV1) :
    execFeed b s =
      if b = 0xFF then execLenV1Jumbo s else execLenV1 b s := by
  rw [execFeed_eq_performRow (h ▸ decodeSel_payloadLengthV1 b)]
  split_ifs <;> rfl

theorem execFeed_payloadLengthJumboLow (b : Byte) (s : State) (h : s.state = DecState.payloadLengthJumboLow) :
    execFeed b s =
      execJlenLo b s := by
  rw [execFeed_eq_performRow (h ▸ decodeSel_payloadLengthJumboLow b)]
  rfl

theorem execFeed_payloadLengthJumboHigh (b : Byte) (s : State) (h : s.state = DecState.payloadLengthJumboHigh) :
    execFeed b s =
      execJlenHi b s := by
  rw [execFeed_eq_performRow (h ▸ decodeSel_payloadLengthJumboHigh b)]
  rfl

theorem execFeed_payloadLengthV2Low (b : Byte) (s : State) (h : s.state = DecState.payloadLengthV2Low) :
    execFeed b s =
      execLenV2Lo b s := by
  rw [execFeed_eq_performRow (h ▸ decodeSel_payloadLengthV2Low b)]
  rfl

theorem execFeed_payloadLengthV2High (b : Byte) (s : State) (h : s.state = DecState.payloadLengthV2High) :
    execFeed b s =
      execLenV2Hi b s := by
  rw [execFeed_eq_performRow (h ▸ decodeSel_payloadLengthV2High b)]
  rfl

theorem execFeed_codeV1 (b : Byte) (s : State) (h : s.state = DecState.codeV1) :
    execFeed b s =
      execCodeV1 b s := by
  rw [execFeed_eq_performRow (h ▸ decodeSel_codeV1 b)]
  rfl

theorem execFeed_codeJumboV1 (b : Byte) (s : State) (h : s.state = DecState.codeJumboV1) :
    execFeed b s =
      execCodeJumboV1 b s := by
  rw [execFeed_eq_performRow (h ▸ decodeSel_codeJumboV1 b)]
  rfl

theorem execFeed_codeV2Low (b : Byte) (s : State) (h : s.state = DecState.codeV2Low) :
    execFeed b s =
      execCodeV2Lo b s := by
  rw [execFeed_eq_performRow (h ▸ decodeSel_codeV2Low b)]
  rfl

theorem execFeed_codeV2High (b : Byte) (s : State) (h : s.state = DecState.codeV2High) :
    execFeed b s =
      execCodeV2Hi b s := by
  rw [execFeed_eq_performRow (h ▸ decodeSel_codeV2High b)]
  rfl

theorem execFeed_payloadV1 (b : Byte) (s : State) (h : s.state = DecState.payloadV1) :
    execFeed b s =
      execPayloadV1 b s := by
  rw [execFeed_eq_performRow (h ▸ decodeSel_payloadV1 b)]
  rfl

theorem execFeed_payloadV2 (b : Byte) (s : State) (h : s.state = DecState.payloadV2) :
    execFeed b s =
      execPayloadV2 b s := by
  rw [execFeed_eq_performRow (h ▸ decodeSel_payloadV2 b)]
  rfl

theorem execFeed_checksumV1 (b : Byte) (s : State) (h : s.state = DecState.checksumV1) :
    execFeed b s =
      execChecksumV1 b s := by
  rw [execFeed_eq_performRow (h ▸ decodeSel_checksumV1 b)]
  rfl

theorem execFeed_checksumV2 (b : Byte) (s : State) (h : s.state = DecState.checksumV2) :
    execFeed b s =
      execChecksumV2 b s := by
  rw [execFeed_eq_performRow (h ▸ decodeSel_checksumV2 b)]
  rfl

/-- A reserved decoder state raises BadState with that state (30_encoding.md R88). -/
theorem execFeed_reserved (b : Byte) (s : State) (h : 18 ≤ s.state.toNat) :
    execFeed b s = .fault (.badState s.state) := by
  rcases decState_cases s.state with e | e | e | e | e | e | e | e | e | e | e | e | e | e | e | e | e | e | e | e | e
  iterate 18 (rw [e] at h; simp at h)
  all_goals
    obtain ⟨lo, e⟩ := e
    simp only [execFeed, e, decodeSel_badState1819, decodeSel_badState2023, decodeSel_badState2431]
    rfl

end Sys2Proof.Machine
end

