-- ==== Sys2Proof/Laws/PerInstr.lean ====
section
/-! SUPPORT. Statements made per instruction: the word the encoder gives an instruction lies in that instruction's own row
of spec/opcode_table.json. -/

namespace Sys2Proof.Laws.TableRow

/-- The mask and the match of an instruction's row, as spec/opcode_table.json gives them. -/
def row : Instr → BitVec 13 × BitVec 13
  | .feed _ => (0xF, 0x0)
  | .send _ _ _ _ => (0xF, 0x1)
  | .timerFire _ => (0xF, 0x2)
  | .writeDone _ _ => (0xF, 0x3)
  | .reset => (0xF, 0x4)
  | .link _ _ => (0xF, 0x5)
  | .tick _ => (0xF, 0x6)
  | .crc8Step _ _ => (0xF, 0x7)
  | .crc8 _ _ => (0xF, 0x8)
  | .xor8 _ => (0xF, 0x9)
  | .encodeV1 _ _ => (0xF, 0xA)
  | .encodeV2 _ _ => (0xF, 0xB)
  | .encode _ _ => (0xF, 0xC)
  | .reservedOp13 => (0xF, 0xD)
  | .reservedOp1415 _ => (0xE, 0xE)
  | .idleSync => (0x1FFF, 0x0024)
  | .idleDiscard _ => (0x1F00, 0x0000)
  | .protoM => (0x1FFF, 0x014D)
  | .protoX => (0x1FFF, 0x0158)
  | .protoBad _ => (0x1F00, 0x0100)
  | .dirV1From => (0x1FFF, 0x023E)
  | .dirV1To => (0x1FFF, 0x023C)
  | .dirV1Unsup => (0x1FFF, 0x0221)
  | .dirV1Other _ => (0x1F00, 0x0200)
  | .dirV2From => (0x1FFF, 0x033E)
  | .dirV2To => (0x1FFF, 0x033C)
  | .dirV2Unsup => (0x1FFF, 0x0321)
  | .dirV2Other _ => (0x1F00, 0x0300)
  | .flagV2 _ => (0x1F00, 0x0400)
  | .lenV1Jumbo => (0x1FFF, 0x05FF)
  | .lenV1 _ => (0x1F00, 0x0500)
  | .jlenLo _ => (0x1F00, 0x0600)
  | .jlenHi _ => (0x1F00, 0x0700)
  | .lenV2Lo _ => (0x1F00, 0x0800)
  | .lenV2Hi _ => (0x1F00, 0x0900)
  | .codeV1 _ => (0x1F00, 0x0A00)
  | .codeJumboV1 _ => (0x1F00, 0x0B00)
  | .codeV2Lo _ => (0x1F00, 0x0C00)
  | .codeV2Hi _ => (0x1F00, 0x0D00)
  | .payloadV1 _ => (0x1F00, 0x0E00)
  | .payloadV2 _ => (0x1F00, 0x0F00)
  | .checksumV1 _ => (0x1F00, 0x1000)
  | .checksumV2 _ => (0x1F00, 0x1100)
  | .badState1819 _ _ => (0x1E00, 0x1200)
  | .badState2023 _ _ => (0x1C00, 0x1400)
  | .badState2431 _ _ => (0x1800, 0x1800)

/-- The bits the table numbers: `op[3:0]` of an event word, or the selector. -/
def bits : CommandWord → BitVec 13
  | .event w => w.op.setWidth 13
  | .sel v => v

/-- `(word & mask) == match` (spec 30_encoding.md R82, R84). -/
def Statement (i : Instr) : Prop := bits (encode i) &&& (row i).1 = (row i).2

/-- An event word matches when its opcode does. -/
theorem of_event {i : Instr} {op : BitVec 4} {operands : List Operand} {m p : BitVec 13}
    (hw : encode i = .event ⟨op, operands⟩) (hr : row i = (m, p)) (h : op.setWidth 13 &&& m = p) : Statement i := by
  rw [Statement, hw, hr]
  exact h

/-- A selector with a free byte matches a row that masks the byte out. -/
theorem selWord_free {st : DecState} {m p : BitVec 13} (b : Byte) (hs : st &&& selState m = selState p)
    (hm : selByte m = 0) (hp : selByte p = 0) : selWord st b &&& m = p := by
  have h := row_applies st b m p
  rw [hs, hm, hp] at h
  simpa using h

theorem feed (b : Byte) : Statement (.feed b) :=
  of_event rfl rfl rfl

theorem send (code : Half) (payload : List Byte) (tag : Nat) (ioe : Bool) : Statement (.send code payload tag ioe) :=
  of_event rfl rfl rfl

theorem timerFire (tag : Nat) : Statement (.timerFire tag) :=
  of_event rfl rfl rfl

theorem writeDone (wid : Nat) (n : Nat) : Statement (.writeDone wid n) :=
  of_event rfl rfl rfl

theorem reset : Statement .reset := rfl

theorem link (c : Bool) (o : Bool) : Statement (.link c o) :=
  of_event rfl rfl rfl

theorem tick (t : Nat) : Statement (.tick t) :=
  of_event rfl rfl rfl

theorem crc8Step (crc : Byte) (b : Byte) : Statement (.crc8Step crc b) :=
  of_event rfl rfl rfl

theorem crc8 (seed : Byte) (bs : List Byte) : Statement (.crc8 seed bs) :=
  of_event rfl rfl rfl

theorem xor8 (bs : List Byte) : Statement (.xor8 bs) :=
  of_event rfl rfl rfl

theorem encodeV1 (code : Byte) (payload : List Byte) : Statement (.encodeV1 code payload) :=
  of_event rfl rfl rfl

theorem encodeV2 (code : Half) (payload : List Byte) : Statement (.encodeV2 code payload) :=
  of_event rfl rfl rfl

theorem encode (code : Half) (payload : List Byte) : Statement (.encode code payload) :=
  of_event rfl rfl rfl

theorem reservedOp13 : Statement .reservedOp13 := rfl

theorem reservedOp1415 (lo : BitVec 1) : Statement (.reservedOp1415 lo) := by
  have h : lo = 0 ∨ lo = 1 := by revert lo; decide
  rcases h with rfl | rfl <;> rfl

theorem idleSync : Statement .idleSync := rfl

theorem idleDiscard (b : Byte) : Statement (.idleDiscard b) :=
  selWord_free (m := 0x1F00) (p := 0x0000) b rfl rfl rfl

theorem protoM : Statement .protoM := rfl

theorem protoX : Statement .protoX := rfl

theorem protoBad (b : Byte) : Statement (.protoBad b) :=
  selWord_free (m := 0x1F00) (p := 0x0100) b rfl rfl rfl

theorem dirV1From : Statement .dirV1From := rfl

theorem dirV1To : Statement .dirV1To := rfl

theorem dirV1Unsup : Statement .dirV1Unsup := rfl

theorem dirV1Other (b : Byte) : Statement (.dirV1Other b) :=
  selWord_free (m := 0x1F00) (p := 0x0200) b rfl rfl rfl

theorem dirV2From : Statement .dirV2From := rfl

theorem dirV2To : Statement .dirV2To := rfl

theorem dirV2Unsup : Statement .dirV2Unsup := rfl

theorem dirV2Other (b : Byte) : Statement (.dirV2Other b) :=
  selWord_free (m := 0x1F00) (p := 0x0300) b rfl rfl rfl

theorem flagV2 (b : Byte) : Statement (.flagV2 b) :=
  selWord_free (m := 0x1F00) (p := 0x0400) b rfl rfl rfl

theorem lenV1Jumbo : Statement .lenV1Jumbo := rfl

theorem lenV1 (b : Byte) : Statement (.lenV1 b) :=
  selWord_free (m := 0x1F00) (p := 0x0500) b rfl rfl rfl

theorem jlenLo (b : Byte) : Statement (.jlenLo b) :=
  selWord_free (m := 0x1F00) (p := 0x0600) b rfl rfl rfl

theorem jlenHi (b : Byte) : Statement (.jlenHi b) :=
  selWord_free (m := 0x1F00) (p := 0x0700) b rfl rfl rfl

theorem lenV2Lo (b : Byte) : Statement (.lenV2Lo b) :=
  selWord_free (m := 0x1F00) (p := 0x0800) b rfl rfl rfl

theorem lenV2Hi (b : Byte) : Statement (.lenV2Hi b) :=
  selWord_free (m := 0x1F00) (p := 0x0900) b rfl rfl rfl

theorem codeV1 (b : Byte) : Statement (.codeV1 b) :=
  selWord_free (m := 0x1F00) (p := 0x0A00) b rfl rfl rfl

theorem codeJumboV1 (b : Byte) : Statement (.codeJumboV1 b) :=
  selWord_free (m := 0x1F00) (p := 0x0B00) b rfl rfl rfl

theorem codeV2Lo (b : Byte) : Statement (.codeV2Lo b) :=
  selWord_free (m := 0x1F00) (p := 0x0C00) b rfl rfl rfl

theorem codeV2Hi (b : Byte) : Statement (.codeV2Hi b) :=
  selWord_free (m := 0x1F00) (p := 0x0D00) b rfl rfl rfl

theorem payloadV1 (b : Byte) : Statement (.payloadV1 b) :=
  selWord_free (m := 0x1F00) (p := 0x0E00) b rfl rfl rfl

theorem payloadV2 (b : Byte) : Statement (.payloadV2 b) :=
  selWord_free (m := 0x1F00) (p := 0x0F00) b rfl rfl rfl

theorem checksumV1 (b : Byte) : Statement (.checksumV1 b) :=
  selWord_free (m := 0x1F00) (p := 0x1000) b rfl rfl rfl

theorem checksumV2 (b : Byte) : Statement (.checksumV2 b) :=
  selWord_free (m := 0x1F00) (p := 0x1100) b rfl rfl rfl

theorem badState1819 (lo : BitVec 1) (b : Byte) : Statement (.badState1819 lo b) :=
  selWord_free (m := 0x1E00) (p := 0x1200) b (by revert lo; decide) rfl rfl

theorem badState2023 (lo : BitVec 2) (b : Byte) : Statement (.badState2023 lo b) :=
  selWord_free (m := 0x1C00) (p := 0x1400) b (by revert lo; decide) rfl rfl

theorem badState2431 (lo : BitVec 3) (b : Byte) : Statement (.badState2431 lo b) :=
  selWord_free (m := 0x1800) (p := 0x1800) b (by revert lo; decide) rfl rfl

end Sys2Proof.Laws.TableRow
end

