-- ==== Sys2Proof/Laws/Rows.lean ====
section
/-! SUPPORT. What a decoder row can do (spec 42_decoder.md, 20_memory.md R61): the part of the state no row writes. -/

namespace Sys2Proof.Machine

/-- What no decoder row writes, and the one thing it does to `PEND`: remove entries. -/
structure RowFrame (s t : State) : Prop where
  cfg : t.cfg = s.cfg
  T : t.T = s.T
  now : t.now = s.now
  wr : t.wr = s.wr
  widNext : t.widNext = s.widNext
  connected : t.connected = s.connected
  offline : t.offline = s.offline
  faults : t.faults = s.faults
  input : t.input = s.input
  pend : t.pend.Sublist s.pend

theorem RowFrame.refl (s : State) : RowFrame s s :=
  ⟨rfl, rfl, rfl, rfl, rfl, rfl, rfl, rfl, rfl, List.Sublist.refl _⟩

/-- Where the decoder goes after the jumbo length, as one condition (42_decoder.md R164). -/
theorem afterJumboLength_eq (p : JumboZero) (len : Half) :
    afterJumboLength p len = if len = 0 ∧ p = .directChecksum then DecState.checksumV1 else DecState.payloadV1 := by
  by_cases h : len = 0
  · subst h
    cases p <;> rfl
  · exact (if_neg h).trans (if_neg fun h' => h h'.1).symm

theorem dispatch_frame (s : State) (ver : Version) (valid : Bool) : RowFrame s (s.dispatch ver valid) :=
  ⟨rfl, rfl, rfl, rfl, rfl, rfl, rfl, rfl, rfl, matchPend_sublist _ _ _⟩

theorem payloadByte_frame {s t : State} {b acc : Byte} {done : DecState} (h : s.payloadByte b acc done = .next t) :
    RowFrame s t := by
  rw [State.payloadByte, State.bufAppend] at h
  split_ifs at h
  cases h
  exact ⟨rfl, rfl, rfl, rfl, rfl, rfl, rfl, rfl, rfl, List.Sublist.refl _⟩

theorem jumboZeroByte_frame {s t : State} {b : Byte} (h : s.jumboZeroByte b = .next t) : RowFrame s t := by
  rw [State.jumboZeroByte] at h
  split at h <;> cases h <;> exact ⟨rfl, rfl, rfl, rfl, rfl, rfl, rfl, rfl, rfl, List.Sublist.refl _⟩

/-- Performing a decoder row keeps the frame. -/
theorem performRow_frame {i : Instr} {s t : State} (h : performRow i s = .next t) : RowFrame s t := by
  cases i
  case payloadV1 b =>
    simp only [performRow, execPayloadV1] at h
    split at h
    · exact jumboZeroByte_frame h
    · exact payloadByte_frame h
  case payloadV2 b => exact payloadByte_frame h
  case checksumV1 b | checksumV2 b =>
    cases h
    exact dispatch_frame _ _ _
  all_goals
    cases h <;> exact ⟨rfl, rfl, rfl, rfl, rfl, rfl, rfl, rfl, rfl, List.Sublist.refl _⟩

/-- FEED keeps the frame. -/
theorem execFeed_frame {b : Byte} {s t : State} (h : execFeed b s = .next t) : RowFrame s t := by
  rw [execFeed] at h
  split at h
  · exact performRow_frame h
  · cases h

/-- The DECODER rows of the opcode table. -/
def isRow (i : Instr) : Bool :=
  match encode i with
  | .event _ => false
  | .sel _ => true

/-- A decoder row executed alone is that row performed (log entry 9). -/
theorem exec_eq_performRow {i : Instr} (h : isRow i = true) (s : State) : exec i s = performRow i s := by
  cases i <;> first | rfl | cases h

/-- The selector table gives decoder rows only. -/
theorem isRow_of_decodeSel {v : BitVec 13} {i : Instr} (h : decodeSel v = some i) : isRow i = true := by
  have hall : ∀ r ∈ selTable, isRow (r.make v) = true := by
    simp only [selTable, List.cons_append, List.nil_append, List.forall_mem_cons, List.not_mem_nil, false_implies,
      implies_true, and_true]
    refine ⟨?_, ?_, ?_, ?_, ?_, ?_, ?_, ?_, ?_, ?_, ?_, ?_, ?_, ?_, ?_, ?_, ?_, ?_, ?_, ?_, ?_, ?_, ?_, ?_, ?_, ?_, ?_,
      ?_, ?_, ?_, ?_⟩ <;> rfl
  rw [decodeSel, Option.map_eq_some_iff] at h
  obtain ⟨r, hr, rfl⟩ := h
  exact hall r (List.mem_of_find?_eq_some hr)

/-- FEED is the row the selector gives. -/
theorem exec_feed_eq {s : State} {b : Byte} {i : Instr} (h : decodeSel (selWord s.state b) = some i) :
    exec (.feed b) s = exec i s := by
  rw [exec_eq_performRow (isRow_of_decodeSel h)]
  simp only [exec, execFeed, h]

end Sys2Proof.Machine
end

