-- ==== Sys2Proof/Laws/State.lean ====
section
/-! SUPPORT. What each named update of the state leaves in each field: one lemma per field per update, true by rfl. -/

namespace Sys2Proof.Machine

variable (s : State)

/-! ### emit -/

@[simp] theorem State.emit_cfg (o : Output) : (s.emit o).cfg = s.cfg := rfl
@[simp] theorem State.emit_state (o : Output) : (s.emit o).state = s.state := rfl
@[simp] theorem State.emit_dir (o : Output) : (s.emit o).dir = s.dir := rfl
@[simp] theorem State.emit_unsup (o : Output) : (s.emit o).unsup = s.unsup := rfl
@[simp] theorem State.emit_lenExp (o : Output) : (s.emit o).lenExp = s.lenExp := rfl
@[simp] theorem State.emit_lenRcv (o : Output) : (s.emit o).lenRcv = s.lenRcv := rfl
@[simp] theorem State.emit_buf (o : Output) : (s.emit o).buf = s.buf := rfl
@[simp] theorem State.emit_cap (o : Output) : (s.emit o).cap = s.cap := rfl
@[simp] theorem State.emit_acc (o : Output) : (s.emit o).acc = s.acc := rfl
@[simp] theorem State.emit_jumbo (o : Output) : (s.emit o).jumbo = s.jumbo := rfl
@[simp] theorem State.emit_code (o : Output) : (s.emit o).code = s.code := rfl
@[simp] theorem State.emit_T (o : Output) : (s.emit o).T = s.T := rfl
@[simp] theorem State.emit_crcerr (o : Output) : (s.emit o).crcerr = s.crcerr := rfl
@[simp] theorem State.emit_now (o : Output) : (s.emit o).now = s.now := rfl
@[simp] theorem State.emit_lastRx (o : Output) : (s.emit o).lastRx = s.lastRx := rfl
@[simp] theorem State.emit_pend (o : Output) : (s.emit o).pend = s.pend := rfl
@[simp] theorem State.emit_wr (o : Output) : (s.emit o).wr = s.wr := rfl
@[simp] theorem State.emit_widNext (o : Output) : (s.emit o).widNext = s.widNext := rfl
@[simp] theorem State.emit_connected (o : Output) : (s.emit o).connected = s.connected := rfl
@[simp] theorem State.emit_offline (o : Output) : (s.emit o).offline = s.offline := rfl
@[simp] theorem State.emit_out (o : Output) : (s.emit o).out = s.out ++ [o] := rfl
@[simp] theorem State.emit_faults (o : Output) : (s.emit o).faults = s.faults := rfl
@[simp] theorem State.emit_input (o : Output) : (s.emit o).input = s.input := rfl

/-! ### record -/

@[simp] theorem State.record_cfg (e : LogEntry) : (s.record e).cfg = s.cfg := rfl
@[simp] theorem State.record_state (e : LogEntry) : (s.record e).state = s.state := rfl
@[simp] theorem State.record_dir (e : LogEntry) : (s.record e).dir = s.dir := rfl
@[simp] theorem State.record_unsup (e : LogEntry) : (s.record e).unsup = s.unsup := rfl
@[simp] theorem State.record_lenExp (e : LogEntry) : (s.record e).lenExp = s.lenExp := rfl
@[simp] theorem State.record_lenRcv (e : LogEntry) : (s.record e).lenRcv = s.lenRcv := rfl
@[simp] theorem State.record_buf (e : LogEntry) : (s.record e).buf = s.buf := rfl
@[simp] theorem State.record_cap (e : LogEntry) : (s.record e).cap = s.cap := rfl
@[simp] theorem State.record_acc (e : LogEntry) : (s.record e).acc = s.acc := rfl
@[simp] theorem State.record_jumbo (e : LogEntry) : (s.record e).jumbo = s.jumbo := rfl
@[simp] theorem State.record_code (e : LogEntry) : (s.record e).code = s.code := rfl
@[simp] theorem State.record_T (e : LogEntry) : (s.record e).T = s.T := rfl
@[simp] theorem State.record_crcerr (e : LogEntry) : (s.record e).crcerr = s.crcerr := rfl
@[simp] theorem State.record_now (e : LogEntry) : (s.record e).now = s.now := rfl
@[simp] theorem State.record_lastRx (e : LogEntry) : (s.record e).lastRx = s.lastRx := rfl
@[simp] theorem State.record_pend (e : LogEntry) : (s.record e).pend = s.pend := rfl
@[simp] theorem State.record_wr (e : LogEntry) : (s.record e).wr = s.wr := rfl
@[simp] theorem State.record_widNext (e : LogEntry) : (s.record e).widNext = s.widNext := rfl
@[simp] theorem State.record_connected (e : LogEntry) : (s.record e).connected = s.connected := rfl
@[simp] theorem State.record_offline (e : LogEntry) : (s.record e).offline = s.offline := rfl
@[simp] theorem State.record_out (e : LogEntry) : (s.record e).out = s.out := rfl
@[simp] theorem State.record_faults (e : LogEntry) : (s.record e).faults = s.faults ++ [e] := rfl
@[simp] theorem State.record_input (e : LogEntry) : (s.record e).input = s.input := rfl

/-! ### dropEvent -/

@[simp] theorem State.dropEvent_cfg (rest : List EventWord) : (s.dropEvent rest).cfg = s.cfg := rfl
@[simp] theorem State.dropEvent_state (rest : List EventWord) : (s.dropEvent rest).state = s.state := rfl
@[simp] theorem State.dropEvent_dir (rest : List EventWord) : (s.dropEvent rest).dir = s.dir := rfl
@[simp] theorem State.dropEvent_unsup (rest : List EventWord) : (s.dropEvent rest).unsup = s.unsup := rfl
@[simp] theorem State.dropEvent_lenExp (rest : List EventWord) : (s.dropEvent rest).lenExp = s.lenExp := rfl
@[simp] theorem State.dropEvent_lenRcv (rest : List EventWord) : (s.dropEvent rest).lenRcv = s.lenRcv := rfl
@[simp] theorem State.dropEvent_buf (rest : List EventWord) : (s.dropEvent rest).buf = s.buf := rfl
@[simp] theorem State.dropEvent_cap (rest : List EventWord) : (s.dropEvent rest).cap = s.cap := rfl
@[simp] theorem State.dropEvent_acc (rest : List EventWord) : (s.dropEvent rest).acc = s.acc := rfl
@[simp] theorem State.dropEvent_jumbo (rest : List EventWord) : (s.dropEvent rest).jumbo = s.jumbo := rfl
@[simp] theorem State.dropEvent_code (rest : List EventWord) : (s.dropEvent rest).code = s.code := rfl
@[simp] theorem State.dropEvent_T (rest : List EventWord) : (s.dropEvent rest).T = s.T := rfl
@[simp] theorem State.dropEvent_crcerr (rest : List EventWord) : (s.dropEvent rest).crcerr = s.crcerr := rfl
@[simp] theorem State.dropEvent_now (rest : List EventWord) : (s.dropEvent rest).now = s.now := rfl
@[simp] theorem State.dropEvent_lastRx (rest : List EventWord) : (s.dropEvent rest).lastRx = s.lastRx := rfl
@[simp] theorem State.dropEvent_pend (rest : List EventWord) : (s.dropEvent rest).pend = s.pend := rfl
@[simp] theorem State.dropEvent_wr (rest : List EventWord) : (s.dropEvent rest).wr = s.wr := rfl
@[simp] theorem State.dropEvent_widNext (rest : List EventWord) : (s.dropEvent rest).widNext = s.widNext := rfl
@[simp] theorem State.dropEvent_connected (rest : List EventWord) : (s.dropEvent rest).connected = s.connected := rfl
@[simp] theorem State.dropEvent_offline (rest : List EventWord) : (s.dropEvent rest).offline = s.offline := rfl
@[simp] theorem State.dropEvent_out (rest : List EventWord) : (s.dropEvent rest).out = s.out := rfl
@[simp] theorem State.dropEvent_faults (rest : List EventWord) : (s.dropEvent rest).faults = s.faults := rfl
@[simp] theorem State.dropEvent_input (rest : List EventWord) : (s.dropEvent rest).input = rest := rfl

/-! ### takeEvent -/

@[simp] theorem State.takeEvent_cfg (rest : List EventWord) : (s.takeEvent rest).cfg = s.cfg := rfl
@[simp] theorem State.takeEvent_state (rest : List EventWord) : (s.takeEvent rest).state = s.state := rfl
@[simp] theorem State.takeEvent_dir (rest : List EventWord) : (s.takeEvent rest).dir = s.dir := rfl
@[simp] theorem State.takeEvent_unsup (rest : List EventWord) : (s.takeEvent rest).unsup = s.unsup := rfl
@[simp] theorem State.takeEvent_lenExp (rest : List EventWord) : (s.takeEvent rest).lenExp = s.lenExp := rfl
@[simp] theorem State.takeEvent_lenRcv (rest : List EventWord) : (s.takeEvent rest).lenRcv = s.lenRcv := rfl
@[simp] theorem State.takeEvent_buf (rest : List EventWord) : (s.takeEvent rest).buf = s.buf := rfl
@[simp] theorem State.takeEvent_cap (rest : List EventWord) : (s.takeEvent rest).cap = s.cap := rfl
@[simp] theorem State.takeEvent_acc (rest : List EventWord) : (s.takeEvent rest).acc = s.acc := rfl
@[simp] theorem State.takeEvent_jumbo (rest : List EventWord) : (s.takeEvent rest).jumbo = s.jumbo := rfl
@[simp] theorem State.takeEvent_code (rest : List EventWord) : (s.takeEvent rest).code = s.code := rfl
@[simp] theorem State.takeEvent_T (rest : List EventWord) : (s.takeEvent rest).T = s.T := rfl
@[simp] theorem State.takeEvent_crcerr (rest : List EventWord) : (s.takeEvent rest).crcerr = s.crcerr := rfl
@[simp] theorem State.takeEvent_now (rest : List EventWord) : (s.takeEvent rest).now = s.now := rfl
@[simp] theorem State.takeEvent_lastRx (rest : List EventWord) : (s.takeEvent rest).lastRx = s.lastRx := rfl
@[simp] theorem State.takeEvent_pend (rest : List EventWord) : (s.takeEvent rest).pend = s.pend := rfl
@[simp] theorem State.takeEvent_wr (rest : List EventWord) : (s.takeEvent rest).wr = s.wr := rfl
@[simp] theorem State.takeEvent_widNext (rest : List EventWord) : (s.takeEvent rest).widNext = s.widNext := rfl
@[simp] theorem State.takeEvent_connected (rest : List EventWord) : (s.takeEvent rest).connected = s.connected := rfl
@[simp] theorem State.takeEvent_offline (rest : List EventWord) : (s.takeEvent rest).offline = s.offline := rfl
@[simp] theorem State.takeEvent_out (rest : List EventWord) : (s.takeEvent rest).out = [] := rfl
@[simp] theorem State.takeEvent_faults (rest : List EventWord) : (s.takeEvent rest).faults = s.faults := rfl
@[simp] theorem State.takeEvent_input (rest : List EventWord) : (s.takeEvent rest).input = rest := rfl

/-! ### allocBuf -/

@[simp] theorem State.allocBuf_cfg (c : Half) : (s.allocBuf c).cfg = s.cfg := rfl
@[simp] theorem State.allocBuf_state (c : Half) : (s.allocBuf c).state = s.state := rfl
@[simp] theorem State.allocBuf_dir (c : Half) : (s.allocBuf c).dir = s.dir := rfl
@[simp] theorem State.allocBuf_unsup (c : Half) : (s.allocBuf c).unsup = s.unsup := rfl
@[simp] theorem State.allocBuf_lenExp (c : Half) : (s.allocBuf c).lenExp = s.lenExp := rfl
@[simp] theorem State.allocBuf_lenRcv (c : Half) : (s.allocBuf c).lenRcv = s.lenRcv := rfl
@[simp] theorem State.allocBuf_buf (c : Half) : (s.allocBuf c).buf = [] := rfl
@[simp] theorem State.allocBuf_cap (c : Half) : (s.allocBuf c).cap = c := rfl
@[simp] theorem State.allocBuf_acc (c : Half) : (s.allocBuf c).acc = s.acc := rfl
@[simp] theorem State.allocBuf_jumbo (c : Half) : (s.allocBuf c).jumbo = s.jumbo := rfl
@[simp] theorem State.allocBuf_code (c : Half) : (s.allocBuf c).code = s.code := rfl
@[simp] theorem State.allocBuf_T (c : Half) : (s.allocBuf c).T = s.T := rfl
@[simp] theorem State.allocBuf_crcerr (c : Half) : (s.allocBuf c).crcerr = s.crcerr := rfl
@[simp] theorem State.allocBuf_now (c : Half) : (s.allocBuf c).now = s.now := rfl
@[simp] theorem State.allocBuf_lastRx (c : Half) : (s.allocBuf c).lastRx = s.lastRx := rfl
@[simp] theorem State.allocBuf_pend (c : Half) : (s.allocBuf c).pend = s.pend := rfl
@[simp] theorem State.allocBuf_wr (c : Half) : (s.allocBuf c).wr = s.wr := rfl
@[simp] theorem State.allocBuf_widNext (c : Half) : (s.allocBuf c).widNext = s.widNext := rfl
@[simp] theorem State.allocBuf_connected (c : Half) : (s.allocBuf c).connected = s.connected := rfl
@[simp] theorem State.allocBuf_offline (c : Half) : (s.allocBuf c).offline = s.offline := rfl
@[simp] theorem State.allocBuf_out (c : Half) : (s.allocBuf c).out = s.out := rfl
@[simp] theorem State.allocBuf_faults (c : Half) : (s.allocBuf c).faults = s.faults := rfl
@[simp] theorem State.allocBuf_input (c : Half) : (s.allocBuf c).input = s.input := rfl

/-! ### clearWorking -/

@[simp] theorem State.clearWorking_cfg : (s.clearWorking).cfg = s.cfg := rfl
@[simp] theorem State.clearWorking_state : (s.clearWorking).state = DecState.idle := rfl
@[simp] theorem State.clearWorking_dir : (s.clearWorking).dir = 0 := rfl
@[simp] theorem State.clearWorking_unsup : (s.clearWorking).unsup = false := rfl
@[simp] theorem State.clearWorking_lenExp : (s.clearWorking).lenExp = 0 := rfl
@[simp] theorem State.clearWorking_lenRcv : (s.clearWorking).lenRcv = 0 := rfl
@[simp] theorem State.clearWorking_buf : (s.clearWorking).buf = [] := rfl
@[simp] theorem State.clearWorking_cap : (s.clearWorking).cap = 0 := rfl
@[simp] theorem State.clearWorking_acc : (s.clearWorking).acc = 0 := rfl
@[simp] theorem State.clearWorking_jumbo : (s.clearWorking).jumbo = false := rfl
@[simp] theorem State.clearWorking_code : (s.clearWorking).code = 0 := rfl
@[simp] theorem State.clearWorking_T : (s.clearWorking).T = s.T := rfl
@[simp] theorem State.clearWorking_crcerr : (s.clearWorking).crcerr = s.crcerr := rfl
@[simp] theorem State.clearWorking_now : (s.clearWorking).now = s.now := rfl
@[simp] theorem State.clearWorking_lastRx : (s.clearWorking).lastRx = s.lastRx := rfl
@[simp] theorem State.clearWorking_pend : (s.clearWorking).pend = s.pend := rfl
@[simp] theorem State.clearWorking_wr : (s.clearWorking).wr = s.wr := rfl
@[simp] theorem State.clearWorking_widNext : (s.clearWorking).widNext = s.widNext := rfl
@[simp] theorem State.clearWorking_connected : (s.clearWorking).connected = s.connected := rfl
@[simp] theorem State.clearWorking_offline : (s.clearWorking).offline = s.offline := rfl
@[simp] theorem State.clearWorking_out : (s.clearWorking).out = s.out := rfl
@[simp] theorem State.clearWorking_faults : (s.clearWorking).faults = s.faults := rfl
@[simp] theorem State.clearWorking_input : (s.clearWorking).input = s.input := rfl

/-! ### resetLink -/

@[simp] theorem State.resetLink_cfg : (s.resetLink).cfg = s.cfg := rfl
@[simp] theorem State.resetLink_state : (s.resetLink).state = DecState.idle := rfl
@[simp] theorem State.resetLink_dir : (s.resetLink).dir = 0 := rfl
@[simp] theorem State.resetLink_unsup : (s.resetLink).unsup = false := rfl
@[simp] theorem State.resetLink_lenExp : (s.resetLink).lenExp = 0 := rfl
@[simp] theorem State.resetLink_lenRcv : (s.resetLink).lenRcv = 0 := rfl
@[simp] theorem State.resetLink_buf : (s.resetLink).buf = [] := rfl
@[simp] theorem State.resetLink_cap : (s.resetLink).cap = 0 := rfl
@[simp] theorem State.resetLink_acc : (s.resetLink).acc = 0 := rfl
@[simp] theorem State.resetLink_jumbo : (s.resetLink).jumbo = false := rfl
@[simp] theorem State.resetLink_code : (s.resetLink).code = 0 := rfl
@[simp] theorem State.resetLink_T : (s.resetLink).T = s.cfg.tInit := rfl
@[simp] theorem State.resetLink_crcerr : (s.resetLink).crcerr = 0 := rfl
@[simp] theorem State.resetLink_now : (s.resetLink).now = s.now := rfl
@[simp] theorem State.resetLink_lastRx : (s.resetLink).lastRx = 0 := rfl
@[simp] theorem State.resetLink_pend : (s.resetLink).pend = [] := rfl
@[simp] theorem State.resetLink_wr : (s.resetLink).wr = s.wr := rfl
@[simp] theorem State.resetLink_widNext : (s.resetLink).widNext = s.widNext := rfl
@[simp] theorem State.resetLink_connected : (s.resetLink).connected = s.connected := rfl
@[simp] theorem State.resetLink_offline : (s.resetLink).offline = s.offline := rfl
@[simp] theorem State.resetLink_out : (s.resetLink).out = s.out := rfl
@[simp] theorem State.resetLink_faults : (s.resetLink).faults = s.faults := rfl
@[simp] theorem State.resetLink_input : (s.resetLink).input = s.input := rfl

/-! ### transmit -/

@[simp] theorem State.transmit_cfg (k : WriteKind) (e : Pending) : (s.transmit k e).cfg = s.cfg := rfl
@[simp] theorem State.transmit_state (k : WriteKind) (e : Pending) : (s.transmit k e).state = s.state := rfl
@[simp] theorem State.transmit_dir (k : WriteKind) (e : Pending) : (s.transmit k e).dir = s.dir := rfl
@[simp] theorem State.transmit_unsup (k : WriteKind) (e : Pending) : (s.transmit k e).unsup = s.unsup := rfl
@[simp] theorem State.transmit_lenExp (k : WriteKind) (e : Pending) : (s.transmit k e).lenExp = s.lenExp := rfl
@[simp] theorem State.transmit_lenRcv (k : WriteKind) (e : Pending) : (s.transmit k e).lenRcv = s.lenRcv := rfl
@[simp] theorem State.transmit_buf (k : WriteKind) (e : Pending) : (s.transmit k e).buf = s.buf := rfl
@[simp] theorem State.transmit_cap (k : WriteKind) (e : Pending) : (s.transmit k e).cap = s.cap := rfl
@[simp] theorem State.transmit_acc (k : WriteKind) (e : Pending) : (s.transmit k e).acc = s.acc := rfl
@[simp] theorem State.transmit_jumbo (k : WriteKind) (e : Pending) : (s.transmit k e).jumbo = s.jumbo := rfl
@[simp] theorem State.transmit_code (k : WriteKind) (e : Pending) : (s.transmit k e).code = s.code := rfl
@[simp] theorem State.transmit_T (k : WriteKind) (e : Pending) : (s.transmit k e).T = s.T := rfl
@[simp] theorem State.transmit_crcerr (k : WriteKind) (e : Pending) : (s.transmit k e).crcerr = s.crcerr := rfl
@[simp] theorem State.transmit_now (k : WriteKind) (e : Pending) : (s.transmit k e).now = s.now := rfl
@[simp] theorem State.transmit_lastRx (k : WriteKind) (e : Pending) : (s.transmit k e).lastRx = s.lastRx := rfl
@[simp] theorem State.transmit_pend (k : WriteKind) (e : Pending) : (s.transmit k e).pend = s.pend := rfl
@[simp] theorem State.transmit_wr (k : WriteKind) (e : Pending) :
    (s.transmit k e).wr = wrInsert ⟨s.widNext, k, e.tag, e.obuf.length, e.tSend⟩ s.wr := rfl
@[simp] theorem State.transmit_widNext (k : WriteKind) (e : Pending) : (s.transmit k e).widNext = s.widNext + 1 := rfl
@[simp] theorem State.transmit_connected (k : WriteKind) (e : Pending) :
    (s.transmit k e).connected = s.connected := rfl
@[simp] theorem State.transmit_offline (k : WriteKind) (e : Pending) : (s.transmit k e).offline = s.offline := rfl
@[simp] theorem State.transmit_out (k : WriteKind) (e : Pending) :
    (s.transmit k e).out = s.out ++ [.write s.widNext e.obuf] := rfl
@[simp] theorem State.transmit_faults (k : WriteKind) (e : Pending) : (s.transmit k e).faults = s.faults := rfl
@[simp] theorem State.transmit_input (k : WriteKind) (e : Pending) : (s.transmit k e).input = s.input := rfl

/-! ### matchFrame -/

@[simp] theorem State.matchFrame_cfg (fr : Frame) : (s.matchFrame fr).cfg = s.cfg := rfl
@[simp] theorem State.matchFrame_state (fr : Frame) : (s.matchFrame fr).state = s.state := rfl
@[simp] theorem State.matchFrame_dir (fr : Frame) : (s.matchFrame fr).dir = s.dir := rfl
@[simp] theorem State.matchFrame_unsup (fr : Frame) : (s.matchFrame fr).unsup = s.unsup := rfl
@[simp] theorem State.matchFrame_lenExp (fr : Frame) : (s.matchFrame fr).lenExp = s.lenExp := rfl
@[simp] theorem State.matchFrame_lenRcv (fr : Frame) : (s.matchFrame fr).lenRcv = s.lenRcv := rfl
@[simp] theorem State.matchFrame_buf (fr : Frame) : (s.matchFrame fr).buf = s.buf := rfl
@[simp] theorem State.matchFrame_cap (fr : Frame) : (s.matchFrame fr).cap = s.cap := rfl
@[simp] theorem State.matchFrame_acc (fr : Frame) : (s.matchFrame fr).acc = s.acc := rfl
@[simp] theorem State.matchFrame_jumbo (fr : Frame) : (s.matchFrame fr).jumbo = s.jumbo := rfl
@[simp] theorem State.matchFrame_code (fr : Frame) : (s.matchFrame fr).code = s.code := rfl
@[simp] theorem State.matchFrame_T (fr : Frame) : (s.matchFrame fr).T = s.T := rfl
@[simp] theorem State.matchFrame_crcerr (fr : Frame) : (s.matchFrame fr).crcerr = s.crcerr := rfl
@[simp] theorem State.matchFrame_now (fr : Frame) : (s.matchFrame fr).now = s.now := rfl
@[simp] theorem State.matchFrame_lastRx (fr : Frame) : (s.matchFrame fr).lastRx = s.lastRx := rfl
@[simp] theorem State.matchFrame_pend (fr : Frame) :
    (s.matchFrame fr).pend = (matchPend s.cfg.matchPolicy fr s.pend).2 := rfl
@[simp] theorem State.matchFrame_wr (fr : Frame) : (s.matchFrame fr).wr = s.wr := rfl
@[simp] theorem State.matchFrame_widNext (fr : Frame) : (s.matchFrame fr).widNext = s.widNext := rfl
@[simp] theorem State.matchFrame_connected (fr : Frame) : (s.matchFrame fr).connected = s.connected := rfl
@[simp] theorem State.matchFrame_offline (fr : Frame) : (s.matchFrame fr).offline = s.offline := rfl
@[simp] theorem State.matchFrame_out (fr : Frame) :
    (s.matchFrame fr).out = s.out ++ (matchPend s.cfg.matchPolicy fr s.pend).1 := rfl
@[simp] theorem State.matchFrame_faults (fr : Frame) : (s.matchFrame fr).faults = s.faults := rfl
@[simp] theorem State.matchFrame_input (fr : Frame) : (s.matchFrame fr).input = s.input := rfl

/-! ### goto -/

@[simp] theorem State.goto_cfg (st : DecState) : (s.goto st).cfg = s.cfg := rfl
@[simp] theorem State.goto_state (st : DecState) : (s.goto st).state = st := rfl
@[simp] theorem State.goto_dir (st : DecState) : (s.goto st).dir = s.dir := rfl
@[simp] theorem State.goto_unsup (st : DecState) : (s.goto st).unsup = s.unsup := rfl
@[simp] theorem State.goto_lenExp (st : DecState) : (s.goto st).lenExp = s.lenExp := rfl
@[simp] theorem State.goto_lenRcv (st : DecState) : (s.goto st).lenRcv = s.lenRcv := rfl
@[simp] theorem State.goto_buf (st : DecState) : (s.goto st).buf = s.buf := rfl
@[simp] theorem State.goto_cap (st : DecState) : (s.goto st).cap = s.cap := rfl
@[simp] theorem State.goto_acc (st : DecState) : (s.goto st).acc = s.acc := rfl
@[simp] theorem State.goto_jumbo (st : DecState) : (s.goto st).jumbo = s.jumbo := rfl
@[simp] theorem State.goto_code (st : DecState) : (s.goto st).code = s.code := rfl
@[simp] theorem State.goto_T (st : DecState) : (s.goto st).T = s.T := rfl
@[simp] theorem State.goto_crcerr (st : DecState) : (s.goto st).crcerr = s.crcerr := rfl
@[simp] theorem State.goto_now (st : DecState) : (s.goto st).now = s.now := rfl
@[simp] theorem State.goto_lastRx (st : DecState) : (s.goto st).lastRx = s.lastRx := rfl
@[simp] theorem State.goto_pend (st : DecState) : (s.goto st).pend = s.pend := rfl
@[simp] theorem State.goto_wr (st : DecState) : (s.goto st).wr = s.wr := rfl
@[simp] theorem State.goto_widNext (st : DecState) : (s.goto st).widNext = s.widNext := rfl
@[simp] theorem State.goto_connected (st : DecState) : (s.goto st).connected = s.connected := rfl
@[simp] theorem State.goto_offline (st : DecState) : (s.goto st).offline = s.offline := rfl
@[simp] theorem State.goto_out (st : DecState) : (s.goto st).out = s.out := rfl
@[simp] theorem State.goto_faults (st : DecState) : (s.goto st).faults = s.faults := rfl
@[simp] theorem State.goto_input (st : DecState) : (s.goto st).input = s.input := rfl

/-! ### direction -/

@[simp] theorem State.direction_cfg (b : Byte) : (s.direction b).cfg = s.cfg := rfl
@[simp] theorem State.direction_state (b : Byte) : (s.direction b).state = s.state := rfl
@[simp] theorem State.direction_dir (b : Byte) :
    (s.direction b).dir = if b = 0x3E then 1 else if b = 0x3C then 0 else s.dir := rfl
@[simp] theorem State.direction_unsup (b : Byte) : (s.direction b).unsup = unsupFlag b := rfl
@[simp] theorem State.direction_lenExp (b : Byte) : (s.direction b).lenExp = s.lenExp := rfl
@[simp] theorem State.direction_lenRcv (b : Byte) : (s.direction b).lenRcv = s.lenRcv := rfl
@[simp] theorem State.direction_buf (b : Byte) : (s.direction b).buf = s.buf := rfl
@[simp] theorem State.direction_cap (b : Byte) : (s.direction b).cap = s.cap := rfl
@[simp] theorem State.direction_acc (b : Byte) : (s.direction b).acc = s.acc := rfl
@[simp] theorem State.direction_jumbo (b : Byte) : (s.direction b).jumbo = s.jumbo := rfl
@[simp] theorem State.direction_code (b : Byte) : (s.direction b).code = s.code := rfl
@[simp] theorem State.direction_T (b : Byte) : (s.direction b).T = s.T := rfl
@[simp] theorem State.direction_crcerr (b : Byte) : (s.direction b).crcerr = s.crcerr := rfl
@[simp] theorem State.direction_now (b : Byte) : (s.direction b).now = s.now := rfl
@[simp] theorem State.direction_lastRx (b : Byte) : (s.direction b).lastRx = s.lastRx := rfl
@[simp] theorem State.direction_pend (b : Byte) : (s.direction b).pend = s.pend := rfl
@[simp] theorem State.direction_wr (b : Byte) : (s.direction b).wr = s.wr := rfl
@[simp] theorem State.direction_widNext (b : Byte) : (s.direction b).widNext = s.widNext := rfl
@[simp] theorem State.direction_connected (b : Byte) : (s.direction b).connected = s.connected := rfl
@[simp] theorem State.direction_offline (b : Byte) : (s.direction b).offline = s.offline := rfl
@[simp] theorem State.direction_out (b : Byte) : (s.direction b).out = s.out := rfl
@[simp] theorem State.direction_faults (b : Byte) : (s.direction b).faults = s.faults := rfl
@[simp] theorem State.direction_input (b : Byte) : (s.direction b).input = s.input := rfl

/-! ### enqueue -/

@[simp] theorem State.enqueue_cfg (e : Pending) : (s.enqueue e).cfg = s.cfg := rfl
@[simp] theorem State.enqueue_state (e : Pending) : (s.enqueue e).state = s.state := rfl
@[simp] theorem State.enqueue_dir (e : Pending) : (s.enqueue e).dir = s.dir := rfl
@[simp] theorem State.enqueue_unsup (e : Pending) : (s.enqueue e).unsup = s.unsup := rfl
@[simp] theorem State.enqueue_lenExp (e : Pending) : (s.enqueue e).lenExp = s.lenExp := rfl
@[simp] theorem State.enqueue_lenRcv (e : Pending) : (s.enqueue e).lenRcv = s.lenRcv := rfl
@[simp] theorem State.enqueue_buf (e : Pending) : (s.enqueue e).buf = s.buf := rfl
@[simp] theorem State.enqueue_cap (e : Pending) : (s.enqueue e).cap = s.cap := rfl
@[simp] theorem State.enqueue_acc (e : Pending) : (s.enqueue e).acc = s.acc := rfl
@[simp] theorem State.enqueue_jumbo (e : Pending) : (s.enqueue e).jumbo = s.jumbo := rfl
@[simp] theorem State.enqueue_code (e : Pending) : (s.enqueue e).code = s.code := rfl
@[simp] theorem State.enqueue_T (e : Pending) : (s.enqueue e).T = s.T := rfl
@[simp] theorem State.enqueue_crcerr (e : Pending) : (s.enqueue e).crcerr = s.crcerr := rfl
@[simp] theorem State.enqueue_now (e : Pending) : (s.enqueue e).now = s.now := rfl
@[simp] theorem State.enqueue_lastRx (e : Pending) : (s.enqueue e).lastRx = s.lastRx := rfl
@[simp] theorem State.enqueue_pend (e : Pending) : (s.enqueue e).pend = s.pend ++ [e] := rfl
@[simp] theorem State.enqueue_wr (e : Pending) : (s.enqueue e).wr = s.wr := rfl
@[simp] theorem State.enqueue_widNext (e : Pending) : (s.enqueue e).widNext = s.widNext := rfl
@[simp] theorem State.enqueue_connected (e : Pending) : (s.enqueue e).connected = s.connected := rfl
@[simp] theorem State.enqueue_offline (e : Pending) : (s.enqueue e).offline = s.offline := rfl
@[simp] theorem State.enqueue_out (e : Pending) : (s.enqueue e).out = s.out := rfl
@[simp] theorem State.enqueue_faults (e : Pending) : (s.enqueue e).faults = s.faults := rfl
@[simp] theorem State.enqueue_input (e : Pending) : (s.enqueue e).input = s.input := rfl

/-! ### dispatch -/

@[simp] theorem State.dispatch_cfg (v : Version) (ok : Bool) : (s.dispatch v ok).cfg = s.cfg := rfl
@[simp] theorem State.dispatch_state (v : Version) (ok : Bool) : (s.dispatch v ok).state = DecState.idle := rfl
@[simp] theorem State.dispatch_dir (v : Version) (ok : Bool) : (s.dispatch v ok).dir = 0 := rfl
@[simp] theorem State.dispatch_unsup (v : Version) (ok : Bool) : (s.dispatch v ok).unsup = false := rfl
@[simp] theorem State.dispatch_lenExp (v : Version) (ok : Bool) : (s.dispatch v ok).lenExp = 0 := rfl
@[simp] theorem State.dispatch_lenRcv (v : Version) (ok : Bool) : (s.dispatch v ok).lenRcv = 0 := rfl
@[simp] theorem State.dispatch_buf (v : Version) (ok : Bool) : (s.dispatch v ok).buf = [] := rfl
@[simp] theorem State.dispatch_cap (v : Version) (ok : Bool) : (s.dispatch v ok).cap = 0 := rfl
@[simp] theorem State.dispatch_acc (v : Version) (ok : Bool) : (s.dispatch v ok).acc = 0 := rfl
@[simp] theorem State.dispatch_jumbo (v : Version) (ok : Bool) : (s.dispatch v ok).jumbo = false := rfl
@[simp] theorem State.dispatch_code (v : Version) (ok : Bool) : (s.dispatch v ok).code = 0 := rfl
@[simp] theorem State.dispatch_T (v : Version) (ok : Bool) : (s.dispatch v ok).T = s.T := rfl
@[simp] theorem State.dispatch_crcerr (v : Version) (ok : Bool) :
    (s.dispatch v ok).crcerr = crcerrAfter s.cfg.crcerrW s.crcerr ok := rfl
@[simp] theorem State.dispatch_now (v : Version) (ok : Bool) : (s.dispatch v ok).now = s.now := rfl
@[simp] theorem State.dispatch_lastRx (v : Version) (ok : Bool) : (s.dispatch v ok).lastRx = s.now := rfl
@[simp] theorem State.dispatch_pend (v : Version) (ok : Bool) :
    (s.dispatch v ok).pend = (matchPend s.cfg.matchPolicy (s.frameOf v ok) s.pend).2 := rfl
@[simp] theorem State.dispatch_wr (v : Version) (ok : Bool) : (s.dispatch v ok).wr = s.wr := rfl
@[simp] theorem State.dispatch_widNext (v : Version) (ok : Bool) : (s.dispatch v ok).widNext = s.widNext := rfl
@[simp] theorem State.dispatch_connected (v : Version) (ok : Bool) : (s.dispatch v ok).connected = s.connected := rfl
@[simp] theorem State.dispatch_offline (v : Version) (ok : Bool) : (s.dispatch v ok).offline = s.offline := rfl
@[simp] theorem State.dispatch_out (v : Version) (ok : Bool) :
    (s.dispatch v ok).out = s.out ++ [.frameOut (s.frameOf v ok)] ++ (matchPend s.cfg.matchPolicy (s.frameOf v ok) s.pend).1 := rfl
@[simp] theorem State.dispatch_faults (v : Version) (ok : Bool) : (s.dispatch v ok).faults = s.faults := rfl
@[simp] theorem State.dispatch_input (v : Version) (ok : Bool) : (s.dispatch v ok).input = s.input := rfl

end Sys2Proof.Machine
end

