-- ==== Sys2Proof/Laws/Step.lean ====
section
/-! SUPPORT. What a step can do, said once (spec 00_scope.md R5, 10_state.md R36, 60_exceptions.md R252). -/

namespace Sys2Proof.Machine

/-! ### Settling -/

/-- A step always has a next state. -/
theorem settle_next (s : State) (r : StepResult State) : ∃ t, settle s r = .next t := by
  cases r <;> exact ⟨_, rfl⟩

/-- A settled outcome is the event's next state, or the state before it with one record more. -/
theorem settle_cases {s t : State} {r : StepResult State} (h : settle s r = .next t) :
    r = .next t ∨ ∃ e, t = s.record e ∧ ((∃ f, r = .fault f ∧ e = .fault f) ∨ ∃ q, r = .refused q ∧ e = .refused q) := by
  cases r <;> cases h
  · exact .inl rfl
  · exact .inr ⟨_, rfl, .inl ⟨_, rfl, rfl⟩⟩
  · exact .inr ⟨_, rfl, .inr ⟨_, rfl, rfl⟩⟩

/-! ### One step -/

theorem step_of_no_event {s : State} (h : s.input = []) : step s = .next s := by rw [step, h]

theorem step_of_event {s : State} {w : EventWord} {rest : List EventWord} (h : s.input = w :: rest) :
    step s = settle (s.dropEvent rest) (runEvent w (s.takeEvent rest)) := by rw [step, h]

theorem runEvent_of_decode {w : EventWord} {i : Instr} (h : decode (.event w) = .ok i) (s : State) :
    runEvent w s = exec i s := by rw [runEvent, h]

/-- Everything a step can do: hold the state when no event is offered, execute the decoded instruction, or record what
the event raises. -/
theorem step_cases {s t : State} (h : step s = .next t) :
    (s.input = [] ∧ t = s) ∨
    ∃ w rest, s.input = w :: rest ∧
      ((∃ i, decode (.event w) = .ok i ∧ exec i (s.takeEvent rest) = .next t) ∨ ∃ e, t = (s.dropEvent rest).record e) := by
  rcases hin : s.input with _ | ⟨w, rest⟩
  · rw [step_of_no_event hin] at h
    exact .inl ⟨rfl, by cases h; rfl⟩
  · refine .inr ⟨w, rest, rfl, ?_⟩
    rw [step_of_event hin] at h
    rcases settle_cases h with hr | ⟨e, rfl, -⟩
    · rw [runEvent] at hr
      split at hr
      · next i hi => exact .inl ⟨i, hi, hr⟩
      · cases hr
    · exact .inr ⟨e, rfl⟩

/-- An instruction that has a next state leaves the parameters, the fault log and the input. -/
theorem exec_frame {i : Instr} {s t : State} (h : exec i s = .next t) :
    t.cfg = s.cfg ∧ t.faults = s.faults ∧ t.input = s.input := by
  by_cases hr : isRow i = true
  · rw [exec_eq_performRow hr] at h
    exact ⟨(performRow_frame h).cfg, (performRow_frame h).faults, (performRow_frame h).input⟩
  cases i
  case feed b => exact ⟨(execFeed_frame h).cfg, (execFeed_frame h).faults, (execFeed_frame h).input⟩
  case send code payload tag ioe =>
    simp only [exec, execSend] at h
    split_ifs at h
    · cases h; exact ⟨rfl, rfl, rfl⟩
    · split at h
      · cases h
      · cases h
        unfold State.queueRequest
        split_ifs <;> exact ⟨rfl, rfl, rfl⟩
  case timerFire tag =>
    simp only [exec, execTimerFire] at h
    split at h
    · cases h
    · split at h
      · cases h
      · cases h
      · split_ifs at h
        cases h
        exact ⟨rfl, rfl, rfl⟩
  case writeDone wid n =>
    simp only [exec, execWriteDone] at h
    split at h
    · cases h
    · split_ifs at h
      split at h <;> cases h
      · unfold State.primaryDone
        split_ifs <;> exact ⟨rfl, rfl, rfl⟩
      · exact ⟨rfl, rfl, rfl⟩
  case link c o =>
    simp only [exec, execLink] at h
    split_ifs at h <;> cases h <;> exact ⟨rfl, rfl, rfl⟩
  case tick u =>
    simp only [exec, execTick] at h
    split_ifs at h
    cases h
    exact ⟨rfl, rfl, rfl⟩
  case encodeV1 | encodeV2 | encode =>
    simp only [exec, execEncodeV1, execEncodeV2, execEncode, emitFrame] at h
    split at h <;> cases h
    exact ⟨rfl, rfl, rfl⟩
  case reset | crc8Step | crc8 | xor8 => cases h; exact ⟨rfl, rfl, rfl⟩
  case reservedOp13 | reservedOp1415 => cases h
  all_goals exact absurd rfl hr

/-! ### Event words name no decoder row -/

theorem endWord_eq_ok {i j : Instr} {ops : List Operand} (h : endWord i ops = .ok j) : j = i := by
  cases ops <;> cases h
  rfl

/-- The end of a decoding chain. -/
theorem bind_eq_ok {α β : Type} {x : Except Reject α} {f : α → Except Reject β} {b : β} (h : (x >>= f) = .ok b) :
    ∃ a, x = .ok a ∧ f a = .ok b := by
  cases x
  · cases h
  · exact ⟨_, rfl, h⟩

/-- An event word decodes to an event row of the opcode table. -/
theorem isRow_of_decodeEvent {w : EventWord} {i : Instr} (h : decode (.event w) = .ok i) : isRow i = false := by
  simp only [decode, decodeEvent] at h
  split at h
  case h_5 => rw [endWord_eq_ok h]; rfl
  case h_14 | h_15 => cases h; rfl
  all_goals
    obtain ⟨_, _, h⟩ := bind_eq_ok h
    repeat' first
      | exact endWord_eq_ok h ▸ rfl
      | obtain ⟨_, _, h⟩ := bind_eq_ok h

/-! ### Feeding bytes -/

/-- The word of a byte decodes to FEED of it. -/
theorem decode_feedWord (b : Byte) : decode (.event (feedWord b)) = .ok (.feed b) := by
  simp only [decode, decodeEvent, feedWord]
  rw [takeBits_num]
  rfl

/-- A step at a byte's word is FEED of it. -/
theorem step_feedWord {s : State} {b : Byte} {rest : List EventWord} (h : s.input = feedWord b :: rest) :
    step s = settle (s.dropEvent rest) (execFeed b (s.takeEvent rest)) := by
  rw [step_of_event h, runEvent_of_decode (decode_feedWord b)]; rfl

end Sys2Proof.Machine
end

