-- ==== Sys2Proof/Tests/Slice0.lean ====
section
/-! SUPPORT. Tests of the model against the spec's own vectors (95_test_vectors.md L1 and L2, and the encodings of
30_encoding.md), and for every statement with hypotheses a named witness that meets them. -/

namespace Sys2Proof.Tests

open Sys2Proof.Machine

set_option maxRecDepth 4000

/-! ### Small states -/

/-- Power-on with the link up. -/
def linked : State := { State.reset with connected := true }

/-- The entry `SEND 100, [], 1, 0` appends at time 0 (L2, DISP). -/
def entry : Pending := ⟨100, [0x24, 0x4D, 0x3C, 0x00, 0x64, 0x64], 1, false, 0, .armed 200⟩

/-- The state after that SEND. -/
def pending : State := { linked with pend := [entry], wr := [⟨0, .primary, 1, 6, 0⟩], widNext := 1 }

/-- The same at time 200, the timer due. -/
def due : State := { pending with now := 200 }

/-- After the retransmission, at time 320. -/
def retried : State :=
  { pending with
    now := 320, pend := [{ entry with timer := .fired }], widNext := 2
    wr := [⟨0, .primary, 1, 6, 0⟩, ⟨1, .retry, 1, 6, 0⟩] }

/-- A decoder inside a frame, its buffer allocated. -/
def inFrame (st : DecState) (len : Half) (buf : List Byte) (acc : Byte) (code : Half) : State :=
  { State.reset with
    state := st, lenExp := len, cap := len, lenRcv := BitVec.ofNat 16 buf.length, buf := buf, acc := acc, code := code }

/-- A decoder in a state, nothing else set. -/
def inState (st : DecState) : State := { State.reset with state := st }

/-- What an instruction leaves, if it has a next state. -/
def after (i : Instr) (s : State) : Option State := nextOf (exec i s)

/-- The outputs of an instruction. -/
def outputs (i : Instr) (s : State) : Option (List Output) := (after i s).map (fun t => t.out)

/-! ### Well-formedness: each check refuses an ill-formed term -/

theorem test_wellFormed_idleDiscard : Instr.wellFormed (.idleDiscard 0x24) = false := by decide
theorem test_wellFormed_protoBad : Instr.wellFormed (.protoBad 0x4D) = false ∧ Instr.wellFormed (.protoBad 0x58) = false := by
  decide
theorem test_wellFormed_dirV1Other :
    Instr.wellFormed (.dirV1Other 0x3E) = false ∧ Instr.wellFormed (.dirV1Other 0x3C) = false ∧
      Instr.wellFormed (.dirV1Other 0x21) = false := by decide
theorem test_wellFormed_dirV2Other :
    Instr.wellFormed (.dirV2Other 0x3E) = false ∧ Instr.wellFormed (.dirV2Other 0x3C) = false ∧
      Instr.wellFormed (.dirV2Other 0x21) = false := by decide
theorem test_wellFormed_lenV1 : Instr.wellFormed (.lenV1 0xFF) = false := by decide

/-! ### Decoding: words written out from 30_encoding.md sections 4 and 5 -/

/-- EVENT words, opcodes 0 to 6 (R82). -/
theorem test_decode_events_low :
    decode (.event ⟨0b0000, [.num 0x24]⟩) = .ok (.feed 0x24) ∧
    decode (.event ⟨0b0001, [.num 0x0064, .bytes [5], .num 2, .num 1]⟩) = .ok (.send 0x64 [5] 2 true) ∧
    decode (.event ⟨0b0010, [.num 7]⟩) = .ok (.timerFire 7) ∧
    decode (.event ⟨0b0011, [.num 0, .num 6]⟩) = .ok (.writeDone 0 6) ∧
    decode (.event ⟨0b0100, []⟩) = .ok .reset ∧
    decode (.event ⟨0b0101, [.num 1, .num 0]⟩) = .ok (.link true false) ∧
    decode (.event ⟨0b0110, [.num 1000]⟩) = .ok (.tick 1000) := by decide

/-- EVENT words, opcodes 7 to 15 (R82, R86). -/
theorem test_decode_events_high :
    decode (.event ⟨0b0111, [.num 0xD5, .num 1]⟩) = .ok (.crc8Step 0xD5 1) ∧
    decode (.event ⟨0b1000, [.num 0, .bytes [1, 0]]⟩) = .ok (.crc8 0 [1, 0]) ∧
    decode (.event ⟨0b1001, [.bytes [0x5A]]⟩) = .ok (.xor8 [0x5A]) ∧
    decode (.event ⟨0b1010, [.num 254, .bytes []]⟩) = .ok (.encodeV1 254 []) ∧
    decode (.event ⟨0b1011, [.num 0x1234, .bytes [1, 2]]⟩) = .ok (.encodeV2 0x1234 [1, 2]) ∧
    decode (.event ⟨0b1100, [.num 255, .bytes []]⟩) = .ok (.encode 255 []) ∧
    decode (.event ⟨0b1101, [.num 9]⟩) = .ok .reservedOp13 ∧
    decode (.event ⟨0b1110, []⟩) = .ok (.reservedOp1415 0) ∧
    decode (.event ⟨0b1111, []⟩) = .ok (.reservedOp1415 1) := by decide

/-- Selectors of the synchronisation, protocol and direction rows (L2, DEC). -/
theorem test_decode_selectors_header :
    decode (.sel 0b0000000100100) = .ok .idleSync ∧ decode (.sel 0x0041) = .ok (.idleDiscard 0x41) ∧
    decode (.sel 0b0000101001101) = .ok .protoM ∧ decode (.sel 0x0158) = .ok .protoX ∧
    decode (.sel 0x0124) = .ok (.protoBad 0x24) ∧
    decode (.sel 0x023E) = .ok .dirV1From ∧ decode (.sel 0x023C) = .ok .dirV1To ∧
    decode (.sel 0x0221) = .ok .dirV1Unsup ∧ decode (.sel 0x0224) = .ok (.dirV1Other 0x24) ∧
    decode (.sel 0x033E) = .ok .dirV2From ∧ decode (.sel 0x033C) = .ok .dirV2To ∧
    decode (.sel 0x0321) = .ok .dirV2Unsup ∧ decode (.sel 0x0300) = .ok (.dirV2Other 0) := by decide

/-- Selectors of the length, code, payload, checksum and reserved rows (L2, DEC; R88). -/
theorem test_decode_selectors_body :
    decode (.sel 0x05FF) = .ok .lenV1Jumbo ∧ decode (.sel 0x0503) = .ok (.lenV1 3) ∧
    decode (.sel 0x0A01) = .ok (.codeV1 1) ∧ decode (.sel 0x0B05) = .ok (.codeJumboV1 5) ∧
    decode (.sel 0x062C) = .ok (.jlenLo 0x2C) ∧ decode (.sel 0x0701) = .ok (.jlenHi 1) ∧
    decode (.sel 0x0401) = .ok (.flagV2 1) ∧ decode (.sel 0x0C34) = .ok (.codeV2Lo 0x34) ∧
    decode (.sel 0x0D12) = .ok (.codeV2Hi 0x12) ∧ decode (.sel 0x0802) = .ok (.lenV2Lo 2) ∧
    decode (.sel 0x0900) = .ok (.lenV2Hi 0) ∧ decode (.sel 0x0E01) = .ok (.payloadV1 1) ∧
    decode (.sel 0x0F01) = .ok (.payloadV2 1) ∧ decode (.sel 0x1002) = .ok (.checksumV1 2) ∧
    decode (.sel 0x113F) = .ok (.checksumV2 0x3F) ∧ decode (.sel 0x1224) = .ok (.badState1819 0 0x24) ∧
    decode (.sel 0x1300) = .ok (.badState1819 1 0) ∧ decode (.sel 0x1700) = .ok (.badState2023 3 0) ∧
    decode (.sel 0x1FFF) = .ok (.badState2431 7 0xFF) := by decide

/-- BadOperand (R83): `CRC8_STEP 0x100, 0x00` and `ENCODE_V1 256, []` (L2). -/
theorem test_decode_badOperand :
    decode (.event ⟨7, [.num 0x100, .num 0]⟩) = .error (.badOperand (.num 0x100)) ∧
    decode (.event ⟨10, [.num 256, .bytes []]⟩) = .error (.badOperand (.num 256)) := by decide

/-- The table's numbering: the decoder's instruction, and the first instruction after reset. -/
theorem test_tableWord :
    decodeTableWord 8 0x4 = some .reset ∧ decodeTableWord 16 0x014D = some .protoM ∧
      (nextOf (step (State.reset.withFetchWord 16 0x0024))).map (fun t => t.state) = some DecState.protoIdentifier ∧
      (nextOf (step (State.reset.withFetchWord 16 0x05FF))).map (fun t => (t.state, t.lenExp, t.acc, t.jumbo)) =
        some (DecState.codeJumboV1, 255, 0xFF, true) := by decide

/-- Script lines (R90): `WRITE_DONE 0, 6` and `XOR8 [5A]`. -/
theorem test_scriptLine :
    scriptLine (.writeDone 0 6) = some "WRITE_DONE 0, 6" ∧ scriptLine (.xor8 [0x5A]) = some "XOR8 [5A]" := by decide

/-! ### CRC8U and XOR8U (L2) -/

theorem test_crc8Step : outputs (.crc8Step 0 0x01) State.reset = some [.val (.byte 0xD5)] ∧
    outputs (.crc8Step 0 0x80) State.reset = some [.val (.byte 0xEF)] := by decide
theorem test_crc8Step_seed : outputs (.crc8Step 0xD5 0x01) State.reset = some [.val (.byte 0xDE)] := by decide
theorem test_crc8_order : outputs (.crc8 0 [1, 0]) State.reset = some [.val (.byte 0x0B)] := by decide
theorem test_crc8_frame :
    outputs (.crc8 0 [0x00, 0x34, 0x12, 0x02, 0x00, 0x01, 0x02]) State.reset = some [.val (.byte 0x3F)] := by decide
theorem test_xor8 : outputs (.xor8 [0xFF, 0x07, 0x03, 0x00, 0x01, 0x02, 0x03]) State.reset = some [.val (.byte 0xFB)] := by
  decide

/-! ### ENC (L2) -/

theorem test_encodeV1 : outputs (.encodeV1 108 [0x10, 0x20]) State.reset =
    some [.val (.bytes [0x24, 0x4D, 0x3C, 0x02, 0x6C, 0x10, 0x20, 0x5E])] := by decide
theorem test_encodeV1_overflow : raisedBy (exec (.encodeV1 255 []) State.reset) =
    some (.refused (.encodeOverflow 255 0)) := by decide
theorem test_encodeV2 : outputs (.encodeV2 0x1234 [0x01, 0x02]) State.reset =
    some [.val (.bytes [0x24, 0x58, 0x3C, 0x00, 0x34, 0x12, 0x02, 0x00, 0x01, 0x02, 0x3F])] := by decide
theorem test_encode_version :
    outputs (.encode 254 []) State.reset = some [.val (.bytes [0x24, 0x4D, 0x3C, 0x00, 0xFE, 0xFE])] ∧
    outputs (.encode 255 []) State.reset =
      some [.val (.bytes [0x24, 0x58, 0x3C, 0x00, 0xFF, 0x00, 0x00, 0x00, 0xE2])] := by decide

/-! ### DEC, one vector per row (L2), through FEED -/

theorem test_protoBad : (after (.feed 0x24) (inState DecState.protoIdentifier)).map (fun t => t.state) =
    some DecState.idle := by decide
theorem test_dirV1From : (after (.feed 0x3E) (inState DecState.directionV1)).map (fun t => (t.state, t.dir, t.unsup)) =
    some (DecState.payloadLengthV1, 1, false) := by decide
theorem test_dirV1Unsup : (after (.feed 0x21) (inState DecState.directionV1)).map (fun t => (t.state, t.dir, t.unsup)) =
    some (DecState.payloadLengthV1, 0, true) := by decide
theorem test_dirV2To : (after (.feed 0x3C) (inState DecState.directionV2)).map (fun t => (t.state, t.dir, t.unsup)) =
    some (DecState.flagV2, 0, false) := by decide
theorem test_lenV1 : (after (.feed 0xFE) (inState DecState.payloadLengthV1)).map
    (fun t => (t.state, t.lenExp, t.acc, t.cap)) = some (DecState.codeV1, 254, 0xFE, 254) := by decide
theorem test_codeV1_length0 : (after (.feed 0x64) (inFrame DecState.codeV1 0 [] 0 0)).map
    (fun t => (t.state, t.code, t.acc)) = some (DecState.checksumV1, 100, 0x64) := by decide
theorem test_jlenLo : (after (.feed 0x2C) { inState DecState.payloadLengthJumboLow with lenExp := 255, acc := 0xFA }).map
    (fun t => (t.state, t.lenExp, t.acc)) = some (DecState.payloadLengthJumboHigh, 0x002C, 0xD6) := by decide
theorem test_jlenHi : (after (.feed 0x01) { inState DecState.payloadLengthJumboHigh with lenExp := 0x2C, acc := 0xD6 }).map
    (fun t => (t.state, t.lenExp, t.acc, t.cap)) = some (DecState.payloadV1, 300, 0xD7, 300) := by decide
theorem test_jlenHi_zero : (after (.feed 0x00) { inState DecState.payloadLengthJumboHigh with acc := 0xF8 }).map
    (fun t => (t.state, t.lenExp)) = some (DecState.checksumV1, 0) := by decide
theorem test_flagV2 : (after (.feed 0x01) (inState DecState.flagV2)).map (fun t => (t.state, t.acc)) =
    some (DecState.codeV2Low, 0) := by decide
theorem test_codeV2Hi : (after (.feed 0x12) { inState DecState.codeV2High with code := 0x34, acc := 0x08 }).map
    (fun t => (t.state, t.code, t.acc)) = some (DecState.payloadLengthV2Low, 0x1234, 0x04) := by decide
theorem test_lenV2Hi : (after (.feed 0x00) { inState DecState.payloadLengthV2High with lenExp := 2, acc := 0x81 }).map
    (fun t => (t.state, t.lenExp, t.acc, t.cap)) = some (DecState.payloadV2, 2, 0x3A, 2) := by decide
theorem test_lenV2Hi_zero : (after (.feed 0x00) { inState DecState.payloadLengthV2High with acc := 0x25 }).map
    (fun t => (t.state, t.acc)) = some (DecState.checksumV2, 0x8F) := by decide
theorem test_payloadV1_last : (after (.feed 0x03) (inFrame DecState.payloadV1 3 [1, 2] 0x01 1)).map
    (fun t => (t.state, t.lenRcv, t.buf, t.acc)) = some (DecState.checksumV1, 3, [1, 2, 3], 0x02) := by decide
theorem test_payloadV2_first : (after (.feed 0x01) (inFrame DecState.payloadV2 2 [] 0x3A 0x1234)).map
    (fun t => (t.state, t.lenRcv, t.buf, t.acc)) = some (DecState.payloadV2, 1, [1], 0x75) := by decide
theorem test_checksumV1_match : (after (.feed 0x02) (inFrame DecState.checksumV1 3 [1, 2, 3] 0x02 1)).map
    (fun t => (t.out, t.state, t.buf, t.cap, t.crcerr)) =
      some ([.frameOut ⟨.v1, 1, [1, 2, 3], true⟩], DecState.idle, [], 0, 0) := by decide
theorem test_checksumV2_mismatch : (after (.feed 0x3E) (inFrame DecState.checksumV2 2 [1, 2] 0x3F 0x1234)).map
    (fun t => (t.out, t.crcerr)) = some ([.frameOut ⟨.v2, 0x1234, [], false⟩], 1) := by decide
theorem test_badState : raisedBy (exec (.feed 0x24) (inState 18)) = some (.fault (.badState 18)) := by decide

/-! ### DISP (L2) -/

theorem test_send : (after (.send 100 [] 1 false) linked).map (fun t => (t.out, t.pend)) =
    some ([.write 0 [0x24, 0x4D, 0x3C, 0x00, 0x64, 0x64], .ret 1 true], [entry]) := by decide
theorem test_send_coalesced : (after (.send 100 [] 2 false) pending).map (fun t => (t.out, t.pend.map (fun e => e.timer))) =
    some ([.ret 2 true], [.armed 200, .none]) := by decide
theorem test_timerFire : (after (.timerFire 1) due).map (fun t => (t.out, t.pend.map (fun e => e.timer))) =
    some ([.write 1 [0x24, 0x4D, 0x3C, 0x00, 0x64, 0x64]], [.fired]) := by decide
theorem test_timerFire_once : raisedBy (exec (.timerFire 1) retried) = some (.refused (.noSuchTimer 1)) := by decide
theorem test_writeDone_primary : (after (.writeDone 0 6) pending).map (fun t => (t.T, t.out, t.wr)) =
    some (199, [.sent 1], []) := by decide
theorem test_writeDone_retry : (after (.writeDone 1 2) retried).map (fun t => (t.T, t.out)) = some (320, []) := by decide
theorem test_reset_keeps_wr : (after .reset pending).map (fun t => (t.pend, t.wr.length, t.T)) = some ([], 1, 200) := by
  decide
theorem test_link_down : (after (.link false false) pending).map (fun t => (t.connected, t.pend, t.out)) =
    some (false, [], []) := by decide
theorem test_link_same : (after (.link true true) pending).map (fun t => (t.offline, t.pend)) = some (true, [entry]) := by
  decide
theorem test_tick_back : raisedBy (exec (.tick 40) { linked with now := 50 }) = some (.refused (.timeBackwards 40)) := by
  decide
theorem test_match_silent_loss :
    (after (.feed 0x65) { inFrame DecState.checksumV1 0 [] 0x64 100 with pend := [entry] }).map (fun t => (t.out, t.pend)) =
      some ([.frameOut ⟨.v1, 100, [], false⟩], []) := by decide

/-! ### Witnesses: a state and operands that meet every hypothesis of a statement, clause by clause, at the ends of the
ranges -/

/-- DecodeEncodeAgree. -/
theorem witness_DecodeEncodeAgree :
    Instr.wellFormed (.lenV1 0xFE) = true ∧ Instr.wellFormed (.idleDiscard 0x25) = true ∧
      Instr.wellFormed (.feed 0xFF) = true := by decide

/-- MisfitOperandRejected: the least value that does not fit each width. -/
theorem witness_MisfitOperandRejected :
    (256 ≤ 256) ∧ (65536 ≤ 65536) ∧ (2 ≤ 2) ∧ (∃ x ∈ [255, 256], 256 ≤ x) := by decide

/-- ReservedOpsRefused: the least and the greatest reserved opcode. -/
theorem witness_ReservedOpsRefused :
    13 ≤ (⟨13, []⟩ : EventWord).op.toNat ∧ 13 ≤ (⟨15, [.num 1]⟩ : EventWord).op.toNat := by decide

/-- ReservedStatesRaise: the least and the greatest reserved state. -/
theorem witness_ReservedStatesRaise : 18 ≤ (inState 18).state.toNat ∧ 18 ≤ (inState 31).state.toNat := by decide

/-- StepRunsDecodedInstruction. -/
theorem witness_StepRunsDecodedInstruction :
    { State.reset with input := [feedWord 0x24] }.input = feedWord 0x24 :: [] ∧
      decode (.event (feedWord 0x24)) = .ok (.feed 0x24) := ⟨rfl, by decide⟩

/-- RaisedEventIsOnlyRecorded: a fault, a refusal of exec, and a rejected word. -/
theorem witness_RaisedEventIsOnlyRecorded :
    raisedBy (runEvent (feedWord 0x24) (inState 18)) = some (.fault (.badState 18)) ∧
      raisedBy (runEvent ⟨13, []⟩ State.reset) = some (.refused (.reservedOp 13)) ∧
      raisedBy (runEvent ⟨0, [.num 256]⟩ State.reset) = some (.refused (.badOperand (.num 256))) := by decide

/-- FaultLogNeverCleared: a step that adds a record, and leaves the outputs of the step before (R252: no state changes). -/
theorem witness_FaultLogNeverCleared :
    (nextOf (step { State.reset with input := [⟨13, []⟩], out := [.sent 1] })).map (fun t => (t.faults, t.out, t.input)) =
      some ([.refused (.reservedOp 13)], [.sent 1], []) := by decide

/-- An event with a step starts with `OUT` empty (R36). -/
theorem test_outEmptyAtStart :
    (nextOf (step { State.reset with input := [feedWord 0x24], out := [.sent 1] })).map (fun t => t.out) = some [] := by
  decide

/-- StepTakesOneEvent. -/
theorem witness_StepTakesOneEvent : State.reset.input = [] := rfl

/-- FeedPerformsSelectedRow. -/
theorem witness_FeedPerformsSelectedRow :
    decode (.sel (selWord (inState DecState.payloadLengthV1).state 0xFF)) = .ok .lenV1Jumbo := by decide

/-- NoWireByteRaises: the invariant, and each state with a byte its clause leaves. -/
theorem witness_NoWireByteRaises :
    DecoderInv State.reset ∧ (inState DecState.idle).state = DecState.idle ∧ (0x25 : Byte) ≠ 0x24 ∧
      (inState DecState.protoIdentifier).state = DecState.protoIdentifier ∧ (0x24 : Byte) ≠ 0x4D ∧ (0x24 : Byte) ≠ 0x58 ∧
      (inState DecState.directionV1).state = DecState.directionV1 ∧
      (inState DecState.directionV2).state = DecState.directionV2 ∧
      (0x20 : Byte) ≠ 0x3E ∧ (0x20 : Byte) ≠ 0x3C ∧ (0x20 : Byte) ≠ 0x21 ∧
      (inState DecState.flagV2).state = DecState.flagV2 :=
  ⟨⟨⟨rfl, rfl, rfl, rfl, rfl, rfl, rfl⟩, rfl, rfl⟩, rfl, by decide, rfl, by decide, by decide, rfl, rfl, by decide,
    by decide, by decide, rfl⟩

/-- The state before the last payload byte of `24 4D 3E 03 01 01 02 03 02` (L2, DEC) meets the decoder's invariant. -/
theorem lastByte_inv : DecoderInv (inFrame DecState.payloadV1 3 [1, 2] 0x01 1) :=
  ⟨⟨rfl, rfl, by decide⟩, rfl, fun _ => by decide, by decide, .inl (by decide)⟩

/-- DecoderTransitionMap. -/
theorem witness_DecoderTransitionMap :
    DecoderInv (inFrame DecState.payloadV1 3 [1, 2] 0x01 1) ∧
      ∃ t, exec (.feed 3) (inFrame DecState.payloadV1 3 [1, 2] 0x01 1) = .next t := ⟨lastByte_inv, _, rfl⟩

/-- SyncAndProtocolRows to ChecksumRowsDispatch: every state they name is the state of some machine. -/
theorem witness_rowStates : ∀ st : DecState, (inState st).state = st := fun _ => rfl

/-- SyncAndProtocolRows and LengthV1Rows: bytes beside the ones an earlier row takes. -/
theorem witness_rowBytes :
    (0x23 : Byte) ≠ 0x24 ∧ (0x25 : Byte) ≠ 0x24 ∧ (0x24 : Byte) ≠ 0x4D ∧ (0x24 : Byte) ≠ 0x58 ∧ (0xFE : Byte) ≠ 0xFF := by
  decide

/-- OtherDirectionRows. -/
theorem witness_OtherDirectionRows : (0x3D : Byte) ≠ 0x3E ∧ (0x3D : Byte) ≠ 0x3C ∧ (0x3D : Byte) ≠ 0x21 := by decide

/-- PayloadV1Row, clause by clause: the last free place, a full buffer, and length 0 under each policy. -/
theorem witness_PayloadV1Row :
    let s := inFrame DecState.payloadV1 3 [1, 2] 0x01 1
    let full := inFrame DecState.payloadV1 2 [1, 2] 0x01 1
    let zero : JumboZero → State := fun p =>
      { inFrame DecState.payloadV1 0 [] 0xF8 7 with cfg := { State.reset.cfg with jumboZero := p } }
    (s.lenExp ≠ 0 ∧ s.buf.length < s.cap.toNat) ∧ (full.lenExp ≠ 0 ∧ full.cap.toNat ≤ full.buf.length) ∧
      ∀ p, (zero p).lenExp = 0 ∧ (zero p).cfg.jumboZero = p :=
  ⟨by decide, by decide, fun _ => ⟨rfl, rfl⟩⟩

/-- PayloadV2Row: the last free place, and a full buffer. -/
theorem witness_PayloadV2Row :
    let s := inFrame DecState.payloadV2 2 [1] 0x75 0x1234
    let full := inFrame DecState.payloadV2 2 [1, 2] 0x3F 0x1234
    (s.state = DecState.payloadV2 ∧ s.buf.length < s.cap.toNat) ∧
      (full.state = DecState.payloadV2 ∧ full.cap.toNat ≤ full.buf.length) := by decide

/-- MatchFirstOfCode: an entry of the code at the head, and a table without the code. -/
theorem witness_MatchFirstOfCode :
    let s := { inFrame DecState.checksumV1 0 [] 0x64 100 with pend := [entry] }
    let other := { inFrame DecState.checksumV2 0 [] 0x8F 101 with pend := [entry] }
    s.cfg.matchPolicy = .first ∧ s.state = DecState.checksumV1 ∧ s.pend = [] ++ entry :: [] ∧ entry.code = s.code ∧
      (∀ x ∈ ([] : List Pending), x.code ≠ s.code) ∧
      other.cfg.matchPolicy = .first ∧ other.state = DecState.checksumV2 ∧ (∀ x ∈ other.pend, x.code ≠ other.code) := by
  decide

/-- MatchAllOfCode. -/
theorem witness_MatchAllOfCode :
    let s := { inFrame DecState.checksumV1 0 [] 0x64 100 with cfg := { State.reset.cfg with matchPolicy := .all } }
    s.cfg.matchPolicy = .all ∧ s.state = DecState.checksumV1 := by decide

/-- CrcIsLinear, OneChangedByteChangesChecksums and XorIgnoresOrder. -/
theorem witness_checksumLaws :
    ([0x01, 0x02] : List Byte).length = ([0x80, 0xFF] : List Byte).length ∧ (0x00 : Byte) ≠ 0x80 ∧
      ([0x01, 0x02] : List Byte).Perm [0x02, 0x01] := ⟨rfl, by decide, List.Perm.swap _ _ _⟩

/-- The length of a payload of zeros. -/
theorem zeros (n : Nat) : (List.replicate n (0 : Byte)).length = n := List.length_replicate

/-- EncodeV1Result, EncodeV2Result and EncodeSelectsVersion: the largest values inside, the least outside. -/
theorem witness_EncodeResults :
    (254 : Byte).toNat ≤ 254 ∧ 254 < (255 : Byte).toNat ∧ (254 : Half).toNat ≤ 254 ∧ 254 < (255 : Half).toNat ∧
      (List.replicate 254 (0 : Byte)).length ≤ 254 ∧ 254 < (List.replicate 255 (0 : Byte)).length ∧
      (List.replicate 65535 (0 : Byte)).length ≤ 65535 ∧ 65535 < (List.replicate 65536 (0 : Byte)).length ∧
      (254 : Half) = (254 : Byte).setWidth 16 ∧ 255 < 256 ∧ 65535 < 65536 :=
  ⟨by decide, by decide, by decide, by decide, (zeros _).le, Nat.lt_of_lt_of_eq (by decide) (zeros 255).symm, (zeros _).le,
    Nat.lt_of_lt_of_eq (by decide) (zeros 65536).symm, by decide, by decide, by decide⟩

/-- EncodedDirectionIsToDevice. -/
theorem witness_EncodedDirectionIsToDevice :
    frameV1 100 [] = .ok entry.obuf ∧ frameOf 100 [] = .ok entry.obuf ∧
      frameV2 100 [] = .ok [0x24, 0x58, 0x3C, 0x00, 0x64, 0x00, 0x00, 0x00, 0x8F] := ⟨rfl, rfl, rfl⟩

/-- SendFailsFast: the link down, and up but offline. -/
theorem witness_SendFailsFast :
    State.reset.connected = false ∧ { linked with offline := true }.offline = true := by decide

/-- The tables of these tests meet the write table's invariant. -/
theorem wr_inv : WrInv pending ∧ WrInv due ∧ WrInv retried := by
  unfold WrInv
  decide

/-- SendQueuesRequest: a code not pending, a pending one with and without a payload, another key, and the invariant. -/
theorem witness_SendQueuesRequest :
    pending.connected = true ∧ pending.offline = false ∧ (∀ e ∈ pending.pend, e.tag ≠ 2) ∧
      frameOf 101 [] = .ok [0x24, 0x4D, 0x3C, 0x00, 0x65, 0x65] ∧ (∀ e ∈ pending.pend, e.code ≠ 101) ∧
      frameOf 100 [5] = .ok [0x24, 0x4D, 0x3C, 0x01, 0x64, 0x05, 0x60] ∧ (∃ e ∈ pending.pend, e.code = 100) ∧
      ([5] : List Byte) ≠ [] ∧ frameOf 100 [] = .ok entry.obuf ∧ 0 ≠ pending.widNext ∧ WrInv pending :=
  ⟨rfl, rfl, by decide, rfl, by decide, rfl, by decide, by decide, rfl, by decide, wr_inv.1⟩

/-- SendAndWriteDoneRefusals: each form of the hypothesis on the record. -/
theorem witness_SendAndWriteDoneRefusals :
    (∃ e ∈ pending.pend, e.tag = 1) ∧ (∀ e ∈ pending.pend, e.tag ≠ 2) ∧ (∀ r ∈ pending.wr, r.wid ≠ 5) ∧
      wrFind 0 pending.wr = some ⟨0, .primary, 1, 6, 0⟩ ∧ 6 < 7 ∧
      WrInv pending ∧ (⟨0, .primary, 1, 6, 0⟩ : WriteRec) ∈ pending.wr :=
  ⟨by decide, by decide, by decide, by decide, by decide, wr_inv.1, by decide⟩

/-- SendAndWriteDoneRefusals: a payload too long for V1, and one too long for V2. -/
theorem witness_SendOverflow :
    ((100 : Half).toNat ≤ 254 ∧ 254 < (List.replicate 255 (0 : Byte)).length) ∧
      65535 < (List.replicate 65536 (0 : Byte)).length := 
  ⟨⟨by decide, Nat.lt_of_lt_of_eq (by decide) (zeros 255).symm⟩, Nat.lt_of_lt_of_eq (by decide) (zeros 65536).symm⟩

/-- TimerFireRetransmits: no such tag, a fired timer, none, one not due by one unit, one just due, another key, and the
invariant. -/
theorem witness_TimerFireRetransmits :
    (∀ e ∈ pending.pend, e.tag ≠ 2) ∧ due.pend = [] ++ entry :: [] ∧ entry.tag = 1 ∧
      (∀ x ∈ ([] : List Pending), x.tag ≠ 1) ∧ entry.timer = .armed 200 ∧ 200 ≤ due.now ∧
      { pending with now := 199 }.now < 200 ∧
      retried.pend = [] ++ { entry with timer := .fired } :: [] ∧ { entry with timer := .fired }.timer = .fired ∧
      { entry with timer := .none }.timer = .none ∧ 0 ≠ due.widNext ∧ WrInv due :=
  ⟨by decide, rfl, rfl, by decide, rfl, by decide, by decide, rfl, rfl, rfl, by decide, wr_inv.2.1⟩

/-- PrimaryWriteDone: each form of the hypothesis on the record, and a partial write. -/
theorem witness_PrimaryWriteDone :
    wrFind 0 pending.wr = some ⟨0, .primary, 1, 6, 0⟩ ∧ (5 : Nat) < 6 ∧
      WrInv pending ∧ (⟨0, .primary, 1, 6, 0⟩ : WriteRec) ∈ pending.wr :=
  ⟨by decide, by decide, wr_inv.1, by decide⟩

/-- RetryWriteDone: each form of the hypothesis on the record, with the write table's invariant. -/
theorem witness_RetryWriteDone :
    wrFind 1 retried.wr = some ⟨1, .retry, 1, 6, 0⟩ ∧ (0 : Nat) ≤ 6 ∧ WrInv retried ∧
      (⟨1, .retry, 1, 6, 0⟩ : WriteRec) ∈ retried.wr :=
  ⟨by decide, by decide, wr_inv.2.2, by decide⟩

/-- ResetEffect. -/
theorem witness_ResetEffect : ∃ t, exec .reset pending = .next t := ⟨_, rfl⟩

/-- LinkEffect: the input unchanged, and changed. -/
theorem witness_LinkEffect : true = pending.connected ∧ false ≠ pending.connected := by decide

/-- TickEffect: the same time, and one unit back. -/
theorem witness_TickEffect : due.now ≤ 200 ∧ 199 < due.now := by decide

/-- PowerOnState and InvAtPowerOn: valid parameters at both ends, and each invalid one. -/
theorem witness_PowerOnState :
    (⟨100, 1, .absorbOne, .all⟩ : Params).Valid ∧ (⟨2000, 1, .absorbForever, .first⟩ : Params).Valid ∧
      (⟨99, 32, .directChecksum, .first⟩ : Params).tInit < 100 ∧ 2000 < (⟨2001, 32, .directChecksum, .first⟩ : Params).tInit ∧
      (⟨100, 0, .directChecksum, .first⟩ : Params).crcerrW = 0 := by decide

/-- The entry of these tests meets the table's invariant. -/
theorem entry_inv : EntryInv 200 entry :=
  ⟨⟨[], rfl⟩, by decide, fun d h => by cases h; decide⟩

/-- DecoderInvKept, BufferBounds: a step inside a frame. -/
theorem witness_DecoderInvKept :
    DecoderInv { inFrame DecState.payloadV1 3 [1, 2] 0x01 1 with input := [feedWord 3] } ∧
      ∃ t, step { inFrame DecState.payloadV1 3 [1, 2] 0x01 1 with input := [feedWord 3] } = .next t :=
  ⟨lastByte_inv, _, rfl⟩

/-- StatsInvKept, PendInvKept and WrInvKept: the step that fires a due timer. -/
theorem witness_DispatcherInvKept :
    let s := { due with input := [⟨2, [.num 1]⟩] }
    StatsInv s ∧ PendInv s ∧ WrInv s ∧ ∃ t, step s = .next t := by
  refine ⟨⟨by decide, by decide, by decide, by decide⟩, ⟨fun e he => ?_, List.pairwise_singleton _ _⟩, ?_, _, rfl⟩
  · rw [List.mem_singleton.mp he]
    exact entry_inv
  · unfold WrInv
    decide

/-- PendingEntriesEvolve: the appended entry is in the table. -/
theorem witness_PendingEntriesEvolve :
    (nextOf (step { linked with input := [⟨1, [.num 100, .bytes [], .num 1, .num 0]⟩] })).map (fun t => t.pend) =
      some [entry] := by decide

/-- CrcerrCountsInvalidFrames: an invalid frame's dispatch has a next state. -/
theorem witness_CrcerrCountsInvalidFrames :
    ∃ t, exec (.feed 0x65) (inFrame DecState.checksumV1 0 [] 0x64 100) = .next t ∧ t.crcerr = 1 := ⟨_, rfl, by decide⟩

/-- TimeAdvancesOnlyByTick. -/
theorem witness_TimeAdvancesOnlyByTick : ∃ t, exec (.tick 250) due = .next t ∧ t.now ≠ due.now := ⟨_, rfl, by decide⟩

/-- ErrorCausesReported: an event that raises each cause, a checksum failure in either version. -/
theorem witness_ErrorCausesReported :
    causeOf (.feed 0x41) State.reset = some .framingDesync ∧
      causeOf (.feed 0x24) (inState DecState.protoIdentifier) = some .framingDesync ∧
      causeOf (.feed 0x65) (inFrame DecState.checksumV1 0 [] 0x64 100) = some .checksumFailure ∧
      causeOf (.feed 0x8E) (inFrame DecState.checksumV2 0 [] 0x8F 100) = some .checksumFailure ∧
      causeOf (.timerFire 1) due = some .timeout ∧ causeOf (.timerFire 1) retried = none ∧
      causeOf (.send 100 [] 9 false) State.reset = some .linkDown := by decide

/-- AbsorbForeverHangs: the hung decoder, and an idle one before the header. -/
theorem witness_AbsorbForeverHangs :
    let forever : Params := { State.reset.cfg with jumboZero := .absorbForever }
    let s := { inFrame DecState.payloadV1 0 [] 0xF8 7 with cfg := forever, input := feeds [0xF8, 0x24] ++ [] }
    let idle := { State.reset with cfg := forever, input := feeds ([0x24, 0x4D, 0x3E, 0xFF, 7, 0, 0] ++ [0xF8]) ++ [] }
    (s.cfg.jumboZero = .absorbForever ∧ s.state = DecState.payloadV1 ∧ s.lenExp = 0 ∧ ([0xF8, 0x24] : List Byte) ≠ [] ∧
      s.input = feeds [0xF8, 0x24] ++ []) ∧
    (idle.cfg.jumboZero = .absorbForever ∧ Idle idle ∧
      idle.input = feeds ([0x24, 0x4D, 0x3E, 0xFF, 7, 0, 0] ++ [0xF8]) ++ []) := by decide

/-- WireFramesAreDelivered: an idle decoder and each kind of frame, at the ends of the length ranges. -/
theorem witness_WireFramesAreDelivered :
    (∀ bs, Idle { State.reset with input := feeds bs ++ [] }) ∧
      { State.reset with input := feeds (wireV1 0x3E 100 []) ++ [] }.input = feeds (wireV1 0x3E 100 []) ++ [] ∧
      { State.reset with input := feeds (wireV1Jumbo 0x3E 7 []) ++ [] }.input = feeds (wireV1Jumbo 0x3E 7 []) ++ [] ∧
      { State.reset with input := feeds (wireV2 0x3E 1 0x1234 []) ++ [] }.input = feeds (wireV2 0x3E 1 0x1234 []) ++ [] ∧
      ([] : List Byte).length ≤ 254 ∧ (List.replicate 254 (0 : Byte)).length ≤ 254 ∧
      (List.replicate 65535 (0 : Byte)).length ≤ 65535 ∧ ([7] : List Byte) ≠ [] ∧
      State.reset.cfg.jumboZero = .directChecksum :=
  ⟨fun _ => ⟨rfl, ⟨rfl, rfl, rfl, rfl, rfl, rfl, rfl⟩, rfl, rfl⟩, rfl, rfl, rfl, by decide, (zeros _).le, (zeros _).le,
    by decide, rfl⟩

/-- EncoderRoundTrip: a V1 and a V2 encoding. -/
theorem witness_EncoderRoundTrip :
    Idle { State.reset with input := feeds entry.obuf ++ [] } ∧ frameOf 100 [] = .ok entry.obuf ∧
      frameV2 100 [] = .ok [0x24, 0x58, 0x3C, 0x00, 0x64, 0x00, 0x00, 0x00, 0x8F] := ⟨by decide, rfl, rfl⟩

/-- CorruptedFrameCountedOnce, V1: byte 6 of the frame of X3, and the code byte. -/
theorem witness_CorruptedFrameCountedOnce_v1 :
    Idle { State.reset with input := feeds ((wireV1 0x3C 1 [1, 2, 3]).set 6 0x12) ++ [] } ∧
      (wireV1 0x3C 1 [1, 2, 3])[6]? ≠ some 0x12 ∧ ([1, 2, 3] : List Byte).length ≤ 254 ∧ 4 ≤ 6 ∧
      6 < 5 + ([1, 2, 3] : List Byte).length ∧ (wireV1 0x3C 1 [1, 2, 3])[4]? ≠ some 0x02 := by decide

/-- CorruptedFrameCountedOnce, jumbo: the code byte of a frame of length 0, and the first and the last payload byte. -/
theorem witness_CorruptedFrameCountedOnce_jumbo :
    Idle { State.reset with input := feeds ((wireV1Jumbo 0x3E 7 []).set 4 0x08) ++ [] } ∧
      (wireV1Jumbo 0x3E 7 [])[4]? ≠ some 0x08 ∧ State.reset.cfg.jumboZero = .directChecksum ∧
      Idle { State.reset with input := feeds ((wireV1Jumbo 0x3E 7 [1, 2]).set 8 0x12) ++ [] } ∧
      (wireV1Jumbo 0x3E 7 [1, 2])[7]? ≠ some 0x12 ∧ (wireV1Jumbo 0x3E 7 [1, 2])[8]? ≠ some 0x12 ∧
      ([1, 2] : List Byte) ≠ [] ∧ ([1, 2] : List Byte).length ≤ 65535 ∧ 7 ≤ 8 ∧ 8 < 7 + ([1, 2] : List Byte).length := by
  decide

/-- CorruptedFrameCountedOnce, V2: both code bytes, and the last payload byte. -/
theorem witness_CorruptedFrameCountedOnce_v2 :
    Idle { State.reset with input := feeds ((wireV2 0x3C 0 0x1234 [1, 2]).set 9 0x12) ++ [] } ∧
      (wireV2 0x3C 0 0x1234 [1, 2])[4]? ≠ some 0x35 ∧ (wireV2 0x3C 0 0x1234 [1, 2])[5]? ≠ some 0x35 ∧
      (wireV2 0x3C 0 0x1234 [1, 2])[9]? ≠ some 0x12 ∧ ([1, 2] : List Byte).length ≤ 65535 ∧
      8 ≤ 9 ∧ 9 < 8 + ([1, 2] : List Byte).length := by decide

end Sys2Proof.Tests
end

section
/-! SUPPORT. What the two sequence checksum instructions do (spec 40_checksum.md R102, R105, R106). -/

namespace Sys2Proof.Machine

theorem exec_crc8 (seed : Byte) (bs : List Byte) (s : State) :
    exec (.crc8 seed bs) s = .next (s.emit (.val (.byte (crc8 seed bs)))) := rfl

theorem exec_xor8 (bs : List Byte) (s : State) :
    exec (.xor8 bs) s = .next (s.emit (.val (.byte (xor8 bs)))) := rfl

/-- The running accumulator of R105 and the XOR `b₀ ^ (b₁ ^ …)` agree. -/
theorem xor8_eq_foldr (bs : List Byte) : xor8 bs = bs.foldr (fun b a => b ^^^ a) 0 := by
  induction bs with
  | nil => rfl
  | cons b bs ih => rw [xor8_cons, ih, List.foldr_cons]

theorem xor8_singleton (b : Byte) : xor8 [b] = b := zero_xor_byte b

/-- The check value of CRC-8/DVB-S2: the CRC of the ASCII digits `1` to `9` (R102). Its 72 shifts are too deep for
`decide`, so simp runs them. -/
theorem crc8_asciiDigits : crc8 0 [0x31, 0x32, 0x33, 0x34, 0x35, 0x36, 0x37, 0x38, 0x39] = 0xBC := by
  simp [crcStep, crcShifts, crcShift]

end Sys2Proof.Machine

open Sys2Proof Sys2Proof.Machine

/-- Settles O27: each instruction emits its checksum and writes nothing else, and the accumulator of XOR8 is the XOR of
the bytes, whatever they are. The listed corner cases are computed. -/
theorem sequenceChecksumsComplete : Obligations.SequenceChecksumsComplete := by
  have xor8_emits (bs : List Byte) (s : State) :
      exec (.xor8 bs) s = .next (s.emit (.val (.byte (bs.foldr (fun b a => b ^^^ a) 0)))) := by
    rw [exec_xor8, xor8_eq_foldr]
  exact ⟨exec_crc8, xor8_emits, crc8_nil 0, by decide, by decide, by decide, by decide, by decide, by decide,
    crc8_asciiDigits, xor8_nil, xor8_singleton, by decide, by decide⟩

end

section
/-! SUPPORT. The direction byte of the wire formats, and which of the two encoders answers for `frameOf` (spec
30_encoding.md R71 and R73, 41_encoder.md R122). -/

namespace Sys2Proof.Machine

@[simp] theorem wireV1_getElem?_two (dir code : Byte) (payload : List Byte) :
    (wireV1 dir code payload)[2]? = some dir := rfl

@[simp] theorem wireV2_getElem?_two (dir flag : Byte) (code : Half) (payload : List Byte) :
    (wireV2 dir flag code payload)[2]? = some dir := rfl

/-- The version-selecting encoder adds no frame of its own. -/
theorem frameOf_eq_frameV1_or_frameV2 (code : Half) (payload : List Byte) :
    frameOf code payload = frameV1 code payload ∨ frameOf code payload = frameV2 code payload :=
  (le_or_gt code.toNat 254).imp (frameOf_of_le · payload) (frameOf_of_gt · payload)

theorem frameV1_direction {code : Half} {payload bs : List Byte} (h : frameV1 code payload = .ok bs) :
    bs[2]? = some toDevice := by
  obtain ⟨-, -, rfl⟩ := frameV1_eq_ok h
  exact wireV1_getElem?_two ..

theorem frameV2_direction {code : Half} {payload bs : List Byte} (h : frameV2 code payload = .ok bs) :
    bs[2]? = some toDevice := by
  obtain ⟨-, rfl⟩ := frameV2_eq_ok h
  exact wireV2_getElem?_two ..

end Sys2Proof.Machine

open Sys2Proof Sys2Proof.Machine

/-- Settles O36: both encoders write the wire format with the direction `toDevice`, and ENCODE is one of the two. -/
theorem encodedDirectionIsToDevice : Obligations.EncodedDirectionIsToDevice := by
  rintro code payload bs (h | h | h)
  · exact frameV1_direction h
  · exact frameV2_direction h
  · obtain hv | hv := frameOf_eq_frameV1_or_frameV2 code payload
    · exact frameV1_direction (hv ▸ h)
    · exact frameV2_direction (hv ▸ h)

end

section
/-! SUPPORT. FEED in a known decoder state, and the header bytes whose effect the rows share or compute: the direction
byte and the V2 flag (spec 42_decoder.md R138, R145 to R151, R155). -/

namespace Sys2Proof.Machine

/-- In the decoder state `st`, FEED is the row that takes the selector `(st << 8) | b`. -/
theorem exec_feed_of_state {s : State} {st : DecState} {b : Byte} {i : Instr} (hst : s.state = st)
    (hrow : decodeSel (selWord st b) = some i) : exec (.feed b) s = exec i s :=
  exec_feed_eq (hst ▸ hrow)

theorem State.direction_from_goto (s : State) (st : DecState) :
    (s.direction 0x3E).goto st = { s with unsup := false, dir := 1, state := st } := rfl

theorem State.direction_to_goto (s : State) (st : DecState) :
    (s.direction 0x3C).goto st = { s with unsup := false, dir := 0, state := st } := rfl

/-- `'!'` leaves `dir` as it is. -/
theorem State.direction_unsup_goto (s : State) (st : DecState) :
    (s.direction 0x21).goto st = { s with unsup := true, state := st } := rfl

theorem crcStep_zero_zero : crcStep 0 0 = 0 := by decide

/-- The V2 checksum starts at 0 after the flag, whatever the flag (R155). -/
theorem exec_flagV2 (b : Byte) (s : State) :
    exec (.flagV2 b) s = .next { s with acc := 0, state := DecState.codeV2Low } := by
  have hrow : exec (.flagV2 b) s = .next ({ s with acc := crcStep 0 0 }.goto DecState.codeV2Low) := rfl
  rw [hrow, crcStep_zero_zero]
  rfl

end Sys2Proof.Machine

open Sys2Proof Sys2Proof.Machine

/-- Settles O15: each row but the discarding one only moves the decoder to its next state, and the selector table gives
the row FEED performs. -/
theorem syncAndProtocolRows : Obligations.SyncAndProtocolRows := by
  refine fun s => ⟨fun hidle => ⟨rfl, fun _ _ => rfl, fun b => ?_⟩,
    fun hproto => ⟨rfl, rfl, fun _ _ _ => rfl, fun b => ?_⟩⟩
  · exact exec_feed_of_state hidle (decodeSel_idle b)
  · exact exec_feed_of_state hproto (decodeSel_protoIdentifier b)

/-- Settles O16: the two versions share the effect of the direction byte and differ only in the next decoder state. -/
theorem definedDirectionRows : Obligations.DefinedDirectionRows := by
  refine fun s => ⟨fun hv1 => ?_, fun hv2 => ?_⟩
  · exact ⟨congrArg Host.Outcome.next (s.direction_from_goto DecState.payloadLengthV1),
      congrArg Host.Outcome.next (s.direction_to_goto DecState.payloadLengthV1),
      congrArg Host.Outcome.next (s.direction_unsup_goto DecState.payloadLengthV1),
      exec_feed_of_state hv1 (decodeSel_directionV1 0x3E), exec_feed_of_state hv1 (decodeSel_directionV1 0x3C),
      exec_feed_of_state hv1 (decodeSel_directionV1 0x21)⟩
  · exact ⟨congrArg Host.Outcome.next (s.direction_from_goto DecState.flagV2),
      congrArg Host.Outcome.next (s.direction_to_goto DecState.flagV2),
      congrArg Host.Outcome.next (s.direction_unsup_goto DecState.flagV2),
      exec_feed_of_state hv2 (decodeSel_directionV2 0x3E), exec_feed_of_state hv2 (decodeSel_directionV2 0x3C),
      exec_feed_of_state hv2 (decodeSel_directionV2 0x21)⟩

/-- Settles O18: both rows write what their rules write out, and the selector table sets the sentinel apart from the
other lengths. -/
theorem lengthV1Rows : Obligations.LengthV1Rows :=
  fun _ hlen => ⟨fun _ _ => rfl, rfl, fun b => exec_feed_of_state hlen (decodeSel_payloadLengthV1 b)⟩

/-- Settles O21: the flag row clears the checksum because the CRC of a zero byte from 0 is 0; the other rows write what
their rules write out, and each V2 header state has the one row FEED performs. -/
theorem headerV2Rows : Obligations.HeaderV2Rows := by
  refine fun s b => ⟨fun hflag => ?_, fun hcodeLo => ?_, fun hcodeHi => ?_, fun hlenLo => ?_, fun hlenHi => ?_⟩
  · exact ⟨exec_flagV2 b s, exec_feed_of_state hflag (decodeSel_flagV2 b)⟩
  · exact ⟨rfl, exec_feed_of_state hcodeLo (decodeSel_codeV2Low b)⟩
  · exact ⟨rfl, exec_feed_of_state hcodeHi (decodeSel_codeV2High b)⟩
  · exact ⟨rfl, exec_feed_of_state hlenLo (decodeSel_payloadLengthV2Low b)⟩
  · exact ⟨rfl, exec_feed_of_state hlenHi (decodeSel_payloadLengthV2High b)⟩

end

section
/-! SUPPORT. Decoding and encoding agree: event words through the operand readers, selector words through the row each
state and byte selects (spec 30_encoding.md R82 to R84, R86, R88). -/

namespace Sys2Proof

/-! ### Event words -/

/-- A word with nothing after its last operand is the instruction read. -/
@[simp] theorem endWord_nil (i : Instr) : endWord i [] = .ok i := rfl

/-- A reader that answers hands its value and the operands left to the readers after it. -/
@[simp] theorem ok_bind {ε α β : Type} (a : α) (f : α → Except ε β) : (Except.ok a >>= f) = f a := rfl

/-- A reader that rejects its operand rejects the word. -/
@[simp] theorem error_bind {ε α β : Type} (e : ε) (f : α → Except ε β) :
    ((.error e : Except ε α) >>= f) = .error e := rfl

/-- The two instructions of `RESERVED_OP_14_15` have the opcodes 14 and 15. -/
theorem decode_encode_reservedOp1415 (lo : BitVec 1) :
    decode (encode (.reservedOp1415 lo)) = .ok (.reservedOp1415 lo) := by
  have hlo : lo = 0 ∨ lo = 1 := by revert lo; decide
  rcases hlo with rfl | rfl <;> rfl

/-! ### The rows for "any other byte" -/

theorem wellFormed_idleDiscard (b : Byte) : Instr.wellFormed (.idleDiscard b) = true ↔ b ≠ 0x24 := by
  simp [Instr.wellFormed, Instr.freeByte, Instr.takenBefore]

theorem wellFormed_protoBad (b : Byte) : Instr.wellFormed (.protoBad b) = true ↔ b ≠ 0x4D ∧ b ≠ 0x58 := by
  simp [Instr.wellFormed, Instr.freeByte, Instr.takenBefore]

theorem wellFormed_dirV1Other (b : Byte) :
    Instr.wellFormed (.dirV1Other b) = true ↔ b ≠ 0x3E ∧ b ≠ 0x3C ∧ b ≠ 0x21 := by
  simp [Instr.wellFormed, Instr.freeByte, Instr.takenBefore]

theorem wellFormed_dirV2Other (b : Byte) :
    Instr.wellFormed (.dirV2Other b) = true ↔ b ≠ 0x3E ∧ b ≠ 0x3C ∧ b ≠ 0x21 := by
  simp [Instr.wellFormed, Instr.freeByte, Instr.takenBefore]

theorem wellFormed_lenV1 (b : Byte) : Instr.wellFormed (.lenV1 b) = true ↔ b ≠ 0xFF := by
  simp [Instr.wellFormed, Instr.freeByte, Instr.takenBefore]

theorem decodeSel_idleDiscard {b : Byte} (h : Instr.wellFormed (.idleDiscard b) = true) :
    decodeSel (selWord DecState.idle b) = some (.idleDiscard b) := by
  rw [decodeSel_idle, if_neg ((wellFormed_idleDiscard b).mp h)]

theorem decodeSel_protoBad {b : Byte} (h : Instr.wellFormed (.protoBad b) = true) :
    decodeSel (selWord DecState.protoIdentifier b) = some (.protoBad b) := by
  obtain ⟨hM, hX⟩ := (wellFormed_protoBad b).mp h
  rw [decodeSel_protoIdentifier, if_neg hM, if_neg hX]

theorem decodeSel_dirV1Other {b : Byte} (h : Instr.wellFormed (.dirV1Other b) = true) :
    decodeSel (selWord DecState.directionV1 b) = some (.dirV1Other b) := by
  obtain ⟨hFrom, hTo, hUnsup⟩ := (wellFormed_dirV1Other b).mp h
  rw [decodeSel_directionV1, if_neg hFrom, if_neg hTo, if_neg hUnsup]

theorem decodeSel_dirV2Other {b : Byte} (h : Instr.wellFormed (.dirV2Other b) = true) :
    decodeSel (selWord DecState.directionV2 b) = some (.dirV2Other b) := by
  obtain ⟨hFrom, hTo, hUnsup⟩ := (wellFormed_dirV2Other b).mp h
  rw [decodeSel_directionV2, if_neg hFrom, if_neg hTo, if_neg hUnsup]

theorem decodeSel_lenV1 {b : Byte} (h : Instr.wellFormed (.lenV1 b) = true) :
    decodeSel (selWord DecState.payloadLengthV1 b) = some (.lenV1 b) := by
  rw [decodeSel_payloadLengthV1, if_neg ((wellFormed_lenV1 b).mp h)]

/-! ### Selector words -/

theorem decode_sel_of_decodeSel {v : BitVec 13} {i : Instr} (h : decodeSel v = some i) : decode (.sel v) = .ok i := by
  rw [decode, h]

/-- A decoded selector word is the row the table selects. -/
theorem decodeSel_of_decode_sel {v : BitVec 13} {i : Instr} (h : decode (.sel v) = .ok i) : decodeSel v = some i := by
  rw [decode] at h
  split at h <;> cases h
  assumption

/-- The rows of the reserved states (R88). -/
def isBadStateRow : Instr → Bool
  | .badState1819 _ _ | .badState2023 _ _ | .badState2431 _ _ => true
  | _ => false

theorem isBadStateRow_iff (i : Instr) :
    isBadStateRow i = true ↔
      (∃ lo b, i = .badState1819 lo b) ∨ (∃ lo b, i = .badState2023 lo b) ∨ (∃ lo b, i = .badState2431 lo b) := by
  cases i <;> simp [isBadStateRow]

/-- `i` is the row that takes the byte `b` in the state `st`: selected, well formed, encoded as that selector, and a
BadState row exactly when the state is reserved. -/
structure TakesSelector (st : DecState) (b : Byte) (i : Instr) : Prop where
  selected : decodeSel (selWord st b) = some i
  wellFormed : i.wellFormed = true
  encoded : encode i = .sel (selWord st b)
  badState : 18 ≤ st.toNat ↔ isBadStateRow i = true

theorem TakesSelector.of_legal {st : DecState} {b : Byte} {i : Instr} (hst : st.toNat < 18)
    (hrow : decodeSel (selWord st b) = some i) (hwf : i.wellFormed = true) (henc : encode i = .sel (selWord st b))
    (hbad : isBadStateRow i = false) : TakesSelector st b i :=
  ⟨hrow, hwf, henc, by simp [hbad, hst]⟩

theorem TakesSelector.of_reserved {st : DecState} {b : Byte} {i : Instr} (hst : 18 ≤ st.toNat)
    (hrow : decodeSel (selWord st b) = some i) (hwf : i.wellFormed = true) (henc : encode i = .sel (selWord st b))
    (hbad : isBadStateRow i = true) : TakesSelector st b i :=
  ⟨hrow, hwf, henc, iff_of_true hst hbad⟩

/-! The states whose rows tell bytes apart. -/

theorem exists_takesSelector_idle (b : Byte) : ∃ i, TakesSelector DecState.idle b i := by
  by_cases hb : b = 0x24
  · subst hb; exact ⟨.idleSync, .of_legal (by decide) (decodeSel_idle _) rfl rfl rfl⟩
  · have hwf := (wellFormed_idleDiscard b).mpr hb
    exact ⟨.idleDiscard b, .of_legal (by decide) (decodeSel_idleDiscard hwf) hwf rfl rfl⟩

theorem exists_takesSelector_protoIdentifier (b : Byte) : ∃ i, TakesSelector DecState.protoIdentifier b i := by
  by_cases hM : b = 0x4D
  · subst hM; exact ⟨.protoM, .of_legal (by decide) (decodeSel_protoIdentifier _) rfl rfl rfl⟩
  by_cases hX : b = 0x58
  · subst hX; exact ⟨.protoX, .of_legal (by decide) (decodeSel_protoIdentifier _) rfl rfl rfl⟩
  · have hwf := (wellFormed_protoBad b).mpr ⟨hM, hX⟩
    exact ⟨.protoBad b, .of_legal (by decide) (decodeSel_protoBad hwf) hwf rfl rfl⟩

theorem exists_takesSelector_directionV1 (b : Byte) : ∃ i, TakesSelector DecState.directionV1 b i := by
  by_cases hFrom : b = 0x3E
  · subst hFrom; exact ⟨.dirV1From, .of_legal (by decide) (decodeSel_directionV1 _) rfl rfl rfl⟩
  by_cases hTo : b = 0x3C
  · subst hTo; exact ⟨.dirV1To, .of_legal (by decide) (decodeSel_directionV1 _) rfl rfl rfl⟩
  by_cases hUnsup : b = 0x21
  · subst hUnsup; exact ⟨.dirV1Unsup, .of_legal (by decide) (decodeSel_directionV1 _) rfl rfl rfl⟩
  · have hwf := (wellFormed_dirV1Other b).mpr ⟨hFrom, hTo, hUnsup⟩
    exact ⟨.dirV1Other b, .of_legal (by decide) (decodeSel_dirV1Other hwf) hwf rfl rfl⟩

theorem exists_takesSelector_directionV2 (b : Byte) : ∃ i, TakesSelector DecState.directionV2 b i := by
  by_cases hFrom : b = 0x3E
  · subst hFrom; exact ⟨.dirV2From, .of_legal (by decide) (decodeSel_directionV2 _) rfl rfl rfl⟩
  by_cases hTo : b = 0x3C
  · subst hTo; exact ⟨.dirV2To, .of_legal (by decide) (decodeSel_directionV2 _) rfl rfl rfl⟩
  by_cases hUnsup : b = 0x21
  · subst hUnsup; exact ⟨.dirV2Unsup, .of_legal (by decide) (decodeSel_directionV2 _) rfl rfl rfl⟩
  · have hwf := (wellFormed_dirV2Other b).mpr ⟨hFrom, hTo, hUnsup⟩
    exact ⟨.dirV2Other b, .of_legal (by decide) (decodeSel_dirV2Other hwf) hwf rfl rfl⟩

theorem exists_takesSelector_payloadLengthV1 (b : Byte) : ∃ i, TakesSelector DecState.payloadLengthV1 b i := by
  by_cases hb : b = 0xFF
  · subst hb; exact ⟨.lenV1Jumbo, .of_legal (by decide) (decodeSel_payloadLengthV1 _) rfl rfl rfl⟩
  · have hwf := (wellFormed_lenV1 b).mpr hb
    exact ⟨.lenV1 b, .of_legal (by decide) (decodeSel_lenV1 hwf) hwf rfl rfl⟩

/-- Some row takes every byte in every state. -/
theorem exists_takesSelector (st : DecState) (b : Byte) : ∃ i, TakesSelector st b i := by
  rcases decState_cases st with
    rfl | rfl | rfl | rfl | rfl | rfl | rfl | rfl | rfl | rfl | rfl | rfl | rfl | rfl | rfl | rfl | rfl | rfl |
      ⟨lo, rfl⟩ | ⟨lo, rfl⟩ | ⟨lo, rfl⟩
  · exact exists_takesSelector_idle b
  · exact exists_takesSelector_protoIdentifier b
  · exact exists_takesSelector_directionV1 b
  · exact exists_takesSelector_directionV2 b
  · exact ⟨_, .of_legal (by decide) (decodeSel_flagV2 b) rfl rfl rfl⟩
  · exact exists_takesSelector_payloadLengthV1 b
  · exact ⟨_, .of_legal (by decide) (decodeSel_payloadLengthJumboLow b) rfl rfl rfl⟩
  · exact ⟨_, .of_legal (by decide) (decodeSel_payloadLengthJumboHigh b) rfl rfl rfl⟩
  · exact ⟨_, .of_legal (by decide) (decodeSel_payloadLengthV2Low b) rfl rfl rfl⟩
  · exact ⟨_, .of_legal (by decide) (decodeSel_payloadLengthV2High b) rfl rfl rfl⟩
  · exact ⟨_, .of_legal (by decide) (decodeSel_codeV1 b) rfl rfl rfl⟩
  · exact ⟨_, .of_legal (by decide) (decodeSel_codeJumboV1 b) rfl rfl rfl⟩
  · exact ⟨_, .of_legal (by decide) (decodeSel_codeV2Low b) rfl rfl rfl⟩
  · exact ⟨_, .of_legal (by decide) (decodeSel_codeV2High b) rfl rfl rfl⟩
  · exact ⟨_, .of_legal (by decide) (decodeSel_payloadV1 b) rfl rfl rfl⟩
  · exact ⟨_, .of_legal (by decide) (decodeSel_payloadV2 b) rfl rfl rfl⟩
  · exact ⟨_, .of_legal (by decide) (decodeSel_checksumV1 b) rfl rfl rfl⟩
  · exact ⟨_, .of_legal (by decide) (decodeSel_checksumV2 b) rfl rfl rfl⟩
  · exact ⟨_, .of_reserved (by revert lo; decide) (decodeSel_badState1819 lo b) rfl rfl rfl⟩
  · exact ⟨_, .of_reserved (by revert lo; decide) (decodeSel_badState2023 lo b) rfl rfl rfl⟩
  · exact ⟨_, .of_reserved (by revert lo; decide) (decodeSel_badState2431 lo b) rfl rfl rfl⟩

/-- The row selected is encoded as the word that selects it. -/
theorem encode_of_decodeSel {v : BitVec 13} {i : Instr} (h : decodeSel v = some i) : encode i = .sel v := by
  obtain ⟨j, hj⟩ := exists_takesSelector (selState v) (selByte v)
  have hsel := hj.selected
  have henc := hj.encoded
  rw [selWord_selState_selByte] at hsel henc
  obtain rfl : i = j := Option.some.inj (h.symm.trans hsel)
  exact henc

end Sys2Proof

open Sys2Proof Sys2Proof.Machine

/-- Settles O1: an event word's readers give back the operands it was written from, and in each decoder state the row
selected for a byte is the row encoded. -/
theorem decodeEncodeAgree : Obligations.DecodeEncodeAgree := by
  intro i hwf
  cases i
  case feed | send | timerFire | writeDone | reset | link | tick | crc8Step | crc8 | xor8 | encodeV1 | encodeV2 |
      encode | reservedOp13 =>
    simp [encode, decode, decodeEvent, takeBits_num, takeBytes_bytesOperand, takeNat_num, takeFlag_flagOperand]
  case reservedOp1415 lo => exact decode_encode_reservedOp1415 lo
  all_goals apply decode_sel_of_decodeSel
  case idleSync => exact decodeSel_idle 0x24
  case idleDiscard b => exact decodeSel_idleDiscard hwf
  case protoM => exact decodeSel_protoIdentifier 0x4D
  case protoX => exact decodeSel_protoIdentifier 0x58
  case protoBad b => exact decodeSel_protoBad hwf
  case dirV1From => exact decodeSel_directionV1 0x3E
  case dirV1To => exact decodeSel_directionV1 0x3C
  case dirV1Unsup => exact decodeSel_directionV1 0x21
  case dirV1Other b => exact decodeSel_dirV1Other hwf
  case dirV2From => exact decodeSel_directionV2 0x3E
  case dirV2To => exact decodeSel_directionV2 0x3C
  case dirV2Unsup => exact decodeSel_directionV2 0x21
  case dirV2Other b => exact decodeSel_dirV2Other hwf
  case flagV2 b => exact decodeSel_flagV2 b
  case lenV1Jumbo => exact decodeSel_payloadLengthV1 0xFF
  case lenV1 b => exact decodeSel_lenV1 hwf
  case jlenLo b => exact decodeSel_payloadLengthJumboLow b
  case jlenHi b => exact decodeSel_payloadLengthJumboHigh b
  case lenV2Lo b => exact decodeSel_payloadLengthV2Low b
  case lenV2Hi b => exact decodeSel_payloadLengthV2High b
  case codeV1 b => exact decodeSel_codeV1 b
  case codeJumboV1 b => exact decodeSel_codeJumboV1 b
  case codeV2Lo b => exact decodeSel_codeV2Low b
  case codeV2Hi b => exact decodeSel_codeV2High b
  case payloadV1 b => exact decodeSel_payloadV1 b
  case payloadV2 b => exact decodeSel_payloadV2 b
  case checksumV1 b => exact decodeSel_checksumV1 b
  case checksumV2 b => exact decodeSel_checksumV2 b
  case badState1819 lo b => exact decodeSel_badState1819 lo b
  case badState2023 lo b => exact decodeSel_badState2023 lo b
  case badState2431 lo b => exact decodeSel_badState2431 lo b

/-- Settles O2: by the decoder state of the word, and by its byte in the states whose rows tell bytes apart. -/
theorem selectorTakenByItsRow : Obligations.SelectorTakenByItsRow := by
  intro v
  obtain ⟨i, hi⟩ := exists_takesSelector (selState v) (selByte v)
  have hsel := hi.selected
  have henc := hi.encoded
  rw [selWord_selState_selByte] at hsel henc
  exact ⟨i, decode_sel_of_decodeSel hsel, hi.wellFormed, henc, hi.badState.trans (isBadStateRow_iff i)⟩

/-- Settles O3: each word is read by the operand readers, or taken by the row of its selector. -/
theorem specWordsDecode : Obligations.SpecWordsDecode := by
  refine ⟨?_, ?_, ?_, ?_, ?_, ?_, ?_, ?_, ?_, ?_, ?_, ?_⟩ <;> decide

/-- Settles O4: the readers before the operand that does not fit give back what they were given, and its own reader
rejects it. -/
theorem misfitOperandRejected : Obligations.MisfitOperandRejected := by
  refine fun v l rest => ⟨fun hv => ?_, fun hv => ?_, fun hv => ?_, fun hl => ?_⟩
  · have hbyte (op : BitVec 4) (ops : List Operand) := takeBits_misfit op (n := 8) hv ops
    simp [decode, decodeEvent, takeBits_num, hbyte]
  · have hhalf (op : BitVec 4) (ops : List Operand) := takeBits_misfit op (n := 16) hv ops
    simp [decode, decodeEvent, hhalf]
  · have hflag (op : BitVec 4) (ops : List Operand) := takeFlag_misfit op hv ops
    simp [decode, decodeEvent, takeBits_num, takeBytes_bytesOperand, takeNat_num, takeFlag_flagOperand, hflag]
  · have hbytes (op : BitVec 4) (ops : List Operand) := takeBytes_misfit op hl ops
    simp [decode, decodeEvent, takeBits_num, hbytes]

/-- Settles O5: the reserved opcodes are recognised before any operand is read. -/
theorem reservedOpsRefused : Obligations.ReservedOpsRefused := by
  refine ⟨fun _ => rfl, fun _ _ => rfl, fun ⟨op, operands⟩ s hop => ?_⟩
  have hcases : ∀ op : BitVec 4, 13 ≤ op.toNat → op = 13 ∨ op = 14 ∨ op = 15 := by decide
  rcases hcases op hop with rfl | rfl | rfl
  · rfl
  · have hlo : (14#4).extractLsb' 0 1 = 0#1 := by decide
    simp [runEvent, decode, decodeEvent, exec, execReservedOp1415, hlo]
  · have hlo : (15#4).extractLsb' 0 1 = 1#1 := by decide
    simp [runEvent, decode, decodeEvent, exec, execReservedOp1415, hlo]

/-- Settles O6: each BadState row names the state of its selector, and FEED in a reserved state selects one. -/
theorem reservedStatesRaise : Obligations.ReservedStatesRaise :=
  fun b s => ⟨fun _ => rfl, fun _ => rfl, fun _ => rfl, execFeed_reserved b s⟩

/-- Settles O11: the row decoded from the selector is the row FEED performs. -/
theorem feedPerformsSelectedRow : Obligations.FeedPerformsSelectedRow :=
  fun _ _ _ h => exec_feed_eq (decodeSel_of_decode_sel h)

end

section
/-! SUPPORT. Everything an event can do to the state, said once, and what every step therefore keeps (spec 00_scope.md
R5, 10_state.md, 43_dispatcher.md, 60_exceptions.md R252). -/

namespace Sys2Proof.Machine

/-- Everything an event row can do when it has a next state. -/
inductive EventEffect (s : State) : Instr → State → Prop
  /-- R138 -/
  | feed {b : Byte} {t : State} (h : execFeed b s = .next t) : EventEffect s (.feed b) t
  /-- R201 -/
  | sendFailed {code payload tag ioe} (hlink : s.connected = false ∨ s.offline = true) :
      EventEffect s (.send code payload tag ioe) ((s.emit (.complete tag .noData)).emit (.ret tag false))
  /-- R202 -/
  | sendTransmitted {code payload tag ioe obuf} (hfresh : ∀ e ∈ s.pend, e.tag ≠ tag)
      (hob : frameOf code payload = .ok obuf) :
      EventEffect s (.send code payload tag ioe)
        (((s.enqueue (newPending s code obuf tag ioe)).transmit .primary (newPending s code obuf tag ioe)).emit
          (.ret tag true))
  /-- R203 -/
  | sendCoalesced {code payload tag ioe obuf} (hfresh : ∀ e ∈ s.pend, e.tag ≠ tag)
      (hob : frameOf code payload = .ok obuf) :
      EventEffect s (.send code payload tag ioe)
        ((s.enqueue (newPending s code obuf tag ioe)).emit (.ret tag true))
  /-- R205 -/
  | timerFired {tag : Nat} {pre post : List Pending} {e : Pending} {d : Nat} (hpend : s.pend = pre ++ e :: post)
      (htag : e.tag = tag) (harmed : e.timer = .armed d) (hdue : d ≤ s.now) :
      EventEffect s (.timerFire tag) ({ s with pend := pre ++ { e with timer := .fired } :: post }.transmit .retry e)
  /-- R207, the whole buffer sent -/
  | wholeWritten {wid n : Nat} {r : WriteRec} :
      EventEffect s (.writeDone wid n)
        ({ s with wr := wrErase wid s.wr, T := max Config.tMin (s.T - 1) }.emit (.sent r.tag))
  /-- R207, less sent -/
  | partWritten {wid n : Nat} : EventEffect s (.writeDone wid n) { s with wr := wrErase wid s.wr }
  /-- R208 -/
  | retryWritten {wid n : Nat} {r : WriteRec} :
      EventEffect s (.writeDone wid n)
        { s with wr := wrErase wid s.wr, T := clamp (s.now - r.tSend) Config.tMin Config.tMax }
  /-- 70_reset_and_hazards.md R280 -/
  | reset : EventEffect s .reset s.resetLink
  /-- R214, `connected` as it was -/
  | linkKept {c o : Bool} (hc : c = s.connected) : EventEffect s (.link c o) { s with connected := c, offline := o }
  /-- R214, `connected` changed -/
  | linkReset {c o : Bool} (hc : c ≠ s.connected) :
      EventEffect s (.link c o) { s with connected := c, offline := o }.resetLink
  /-- R215 -/
  | ticked {u : Nat} (hu : s.now ≤ u) : EventEffect s (.tick u) { s with now := u }
  /-- 40_checksum.md, 41_encoder.md -/
  | value {i : Instr} {v : Val} (hi : isValue i = true) : EventEffect s i (s.emit (.val v))

theorem eventEffect_of_exec {i : Instr} {s t : State} (hrow : isRow i = false) (h : exec i s = .next t) :
    EventEffect s i t := by
  rcases exec_other_cases h with ⟨b, rfl⟩ | ⟨code, payload, tag, ioe, rfl⟩ | ⟨tag, rfl⟩ | ⟨wid, n, rfl⟩ | ⟨rfl, rfl⟩ |
    ⟨c, o, rfl⟩ | ⟨u, rfl, hu, rfl⟩ | ⟨hi, v, rfl⟩ | ⟨v, hv⟩
  · exact .feed h
  · rcases execSend_cases h with ⟨hlink, rfl⟩ | ⟨obuf, -, -, hfresh, hob, rfl⟩
    · exact .sendFailed hlink
    · rcases queueRequest_cases s code payload obuf tag ioe with ⟨-, hq⟩ | ⟨-, -, hq⟩
      · exact hq ▸ .sendTransmitted hfresh hob
      · exact hq ▸ .sendCoalesced hfresh hob
  · obtain ⟨pre, e, post, d, hpend, htag, -, harmed, hdue, rfl⟩ := execTimerFire_cases h
    exact .timerFired hpend htag harmed hdue
  · obtain ⟨r, -, -, ⟨-, -, rfl⟩ | ⟨-, -, rfl⟩ | ⟨-, rfl⟩⟩ := execWriteDone_cases h
    · exact .wholeWritten
    · exact .partWritten
    · exact .retryWritten
  · exact .reset
  · rcases execLink_cases h with ⟨hc, rfl⟩ | ⟨hc, rfl⟩
    · exact .linkKept hc
    · exact .linkReset hc
  · exact .ticked hu
  · exact .value hi
  · rw [isRow, hv] at hrow
    cases hrow

/-- What a step leads to: `P` before it gives `Q` after it, where neither the outputs, the input nor the fault log
matters and every event leads from `P` to `Q`. -/
theorem step_leads {P Q : State → Prop} (hhold : ∀ s, P s → Q s) (htake : ∀ s rest, P s → P (s.takeEvent rest))
    (hrecord : ∀ s rest e, P s → Q ((s.dropEvent rest).record e)) (hevent : ∀ i s t, P s → EventEffect s i t → Q t)
    {s t : State} (hs : P s) (h : step s = .next t) : Q t := by
  rcases step_cases h with ⟨-, rfl⟩ | ⟨w, rest, -, ⟨i, hi, ht⟩ | ⟨e, rfl⟩⟩
  · exact hhold t hs
  · exact hevent i _ t (htake s rest hs) (eventEffect_of_exec (isRow_of_decodeEvent hi) ht)
  · exact hrecord s rest e hs

/-! ### The counter of invalid frames -/

/-- What a decoder row leaves in `crcerr` (10_state.md R32). -/
def rowCrcerr (i : Instr) (s : State) : Nat :=
  match i with
  | .checksumV1 b | .checksumV2 b => crcerrAfter s.cfg.crcerrW s.crcerr (validFlag b s.acc)
  | _ => s.crcerr

theorem payloadByte_crcerr {s t : State} {b acc : Byte} {done : DecState} (h : s.payloadByte b acc done = .next t) :
    t.crcerr = s.crcerr := by
  rw [State.payloadByte, State.bufAppend] at h
  split_ifs at h
  cases h
  rfl

theorem jumboZeroByte_crcerr {s t : State} {b : Byte} (h : s.jumboZeroByte b = .next t) : t.crcerr = s.crcerr := by
  rw [State.jumboZeroByte] at h
  split at h <;> cases h <;> rfl

theorem performRow_crcerr {i : Instr} {s t : State} (h : performRow i s = .next t) : t.crcerr = rowCrcerr i s := by
  cases i
  case payloadV1 b =>
    simp only [performRow, execPayloadV1] at h
    split at h
    · exact jumboZeroByte_crcerr h
    · exact payloadByte_crcerr h
  case payloadV2 b => exact payloadByte_crcerr h
  all_goals
    cases h
    all_goals rfl

theorem crcerrAfter_validFlag (w n : Nat) (b acc : Byte) :
    crcerrAfter w n (validFlag b acc) = if b = acc then n else (n + 1) % 2 ^ w := by
  simp [crcerrAfter, validFlag]

/-- Only the checksum rows write `crcerr`. -/
theorem rowCrcerr_of_ne {i : Instr} (hV1 : ∀ b, i ≠ .checksumV1 b) (hV2 : ∀ b, i ≠ .checksumV2 b) (s : State) :
    rowCrcerr i s = s.crcerr := by
  unfold rowCrcerr
  split
  · exact absurd rfl (hV1 _)
  · exact absurd rfl (hV2 _)
  · rfl

theorem selWord_inj {st st' : DecState} {b b' : Byte} (h : selWord st b = selWord st' b') : st = st' ∧ b = b' :=
  ⟨by simpa using congrArg selState h, by simpa using congrArg selByte h⟩

/-- A row is selected in the state it is encoded with only. -/
theorem state_of_decodeSel {st st' : DecState} {b b' : Byte} {i : Instr} (h : decodeSel (selWord st b) = some i)
    (henc : encode i = .sel (selWord st' b')) : st = st' :=
  (selWord_inj (CommandWord.sel.inj ((encode_of_decodeSel h).symm.trans henc))).1

/-- FEED counts a frame exactly at a checksum byte that is not the accumulator. -/
theorem execFeed_crcerr {b : Byte} {s t : State} (h : execFeed b s = .next t) :
    t.crcerr = if (s.state = DecState.checksumV1 ∨ s.state = DecState.checksumV2) ∧ b ≠ s.acc then
      (s.crcerr + 1) % 2 ^ s.cfg.crcerrW else s.crcerr := by
  by_cases hV1 : s.state = DecState.checksumV1
  · rw [execFeed_checksumV1 b s hV1] at h
    cases h
    simp [hV1, crcerrAfter_validFlag]
  by_cases hV2 : s.state = DecState.checksumV2
  · rw [execFeed_checksumV2 b s hV2] at h
    cases h
    simp [hV2, crcerrAfter_validFlag]
  · rw [execFeed] at h
    split at h
    · next i hi =>
      have hne1 (b' : Byte) : i ≠ .checksumV1 b' := fun e => hV1 (state_of_decodeSel (b' := b') hi (e ▸ rfl))
      have hne2 (b' : Byte) : i ≠ .checksumV2 b' := fun e => hV2 (state_of_decodeSel (b' := b') hi (e ▸ rfl))
      rw [performRow_crcerr h, rowCrcerr_of_ne hne1 hne2, if_neg (by simp [hV1, hV2])]
    · cases h

theorem execFeed_crcerr_lt {b : Byte} {s t : State} (hs : s.crcerr < 2 ^ s.cfg.crcerrW) (h : execFeed b s = .next t) :
    t.crcerr < 2 ^ s.cfg.crcerrW := by
  rw [execFeed_crcerr h]
  split_ifs
  · exact Nat.mod_lt _ (Nat.two_pow_pos _)
  · exact hs

/-! ### `PEND` -/

theorem EntryInv.mono {now now' : Nat} {e : Pending} (h : EntryInv now e) (hle : now ≤ now') : EntryInv now' e := by
  obtain ⟨hob, hsent, hdead⟩ := h
  exact ⟨hob, hsent.trans hle, hdead⟩

/-- A fired entry has no deadline to bound. -/
theorem EntryInv.fired {now : Nat} {e : Pending} (h : EntryInv now e) : EntryInv now { e with timer := .fired } := by
  obtain ⟨hob, hsent, -⟩ := h
  exact ⟨hob, hsent, fun _ hd => nomatch hd⟩

/-- The invariant of `PEND` holds of every part of the table, at every later time. -/
theorem PendInv.sublist {s t : State} (h : PendInv s) (hsub : t.pend.Sublist s.pend) (hnow : s.now ≤ t.now) :
    PendInv t := by
  obtain ⟨hentry, hpair⟩ := h
  exact ⟨fun e he => (hentry e (hsub.subset he)).mono hnow, hpair.sublist hsub⟩

theorem newPending_entryInv {s : State} {code : Half} {payload obuf : List Byte} {tag : Nat} {ioe : Bool}
    (hob : frameOf code payload = .ok obuf) (hmin : Config.tMin ≤ s.T) (hmax : s.T ≤ Config.tMax) :
    EntryInv s.now (newPending s code obuf tag ioe) := by
  refine ⟨⟨payload, hob⟩, le_rfl, fun d hd => ?_⟩
  simp only [newPending] at hd ⊢
  split at hd <;> cases hd
  omega

/-- Only the first entry of a code gets a timer (R217). -/
theorem newPending_timer {s : State} {code : Half} {obuf : List Byte} {tag : Nat} {ioe : Bool} :
    (newPending s code obuf tag ioe).timer = .none ∧ (∃ e ∈ s.pend, e.code = code) ∨
    (newPending s code obuf tag ioe).timer = .armed (s.now + s.T) ∧ ∀ e ∈ s.pend, e.code ≠ code := by
  by_cases h : pendHasCode code s.pend = true
  · exact .inl ⟨if_pos h, pendHasCode_iff.mp h⟩
  · exact .inr ⟨if_neg h, pendHasCode_eq_false.mp (Bool.not_eq_true _ ▸ h)⟩

/-- Appending a request with a fresh tag keeps the invariant of `PEND`. -/
theorem PendInv.enqueue {s : State} {code : Half} {payload obuf : List Byte} {tag : Nat} {ioe : Bool} (h : PendInv s)
    (hob : frameOf code payload = .ok obuf) (hmin : Config.tMin ≤ s.T) (hmax : s.T ≤ Config.tMax)
    (hfresh : ∀ e ∈ s.pend, e.tag ≠ tag) : PendInv (s.enqueue (newPending s code obuf tag ioe)) := by
  obtain ⟨hentry, hpair⟩ := h
  refine ⟨fun e he => ?_, List.pairwise_append.mpr ⟨hpair, List.pairwise_singleton _ _, fun a ha b hb => ?_⟩⟩
  · rcases List.mem_append.mp he with he | he
    · exact hentry e he
    · rw [List.mem_singleton.mp he]
      exact newPending_entryInv hob hmin hmax
  · rw [List.mem_singleton.mp hb]
    refine ⟨hfresh a ha, fun hcode => ?_⟩
    rcases newPending_timer with ⟨hnone, -⟩ | ⟨-, hno⟩
    · exact hnone
    · exact absurd hcode (hno a ha)

/-- Firing an armed timer keeps the invariant of `PEND`: no older entry has the code. -/
theorem PendInv.fire {s : State} {pre post : List Pending} {e : Pending} {d : Nat} (h : PendInv s)
    (hpend : s.pend = pre ++ e :: post) (harmed : e.timer = .armed d) :
    PendInv { s with pend := pre ++ { e with timer := .fired } :: post } := by
  obtain ⟨hentry, hpair⟩ := h
  rw [hpend] at hentry hpair
  obtain ⟨hpre, htail, hcross⟩ := List.pairwise_append.mp hpair
  obtain ⟨hpost, hpostpair⟩ := List.pairwise_cons.mp htail
  constructor
  · intro x hx
    rcases List.mem_append.mp hx with hx | hx
    · exact hentry x (List.mem_append_left _ hx)
    rcases List.mem_cons.mp hx with rfl | hx
    · exact (hentry e (by simp)).fired
    · exact hentry x (by simp [hx])
  · refine List.pairwise_append.mpr ⟨hpre, List.pairwise_cons.mpr ⟨hpost, hpostpair⟩, fun a ha b hb => ?_⟩
    rcases List.mem_cons.mp hb with rfl | hb
    · obtain ⟨htag, hcode⟩ := hcross a ha e List.mem_cons_self
      exact ⟨htag, fun hc => absurd (hcode hc) (by simp [harmed])⟩
    · exact hcross a ha b (List.mem_cons_of_mem e hb)

/-! ### `WR` -/

/-- Erasing a key keeps the invariant of `WR`. -/
theorem WrInv.erase {s t : State} {wid : Nat} (h : WrInv s) (hwr : t.wr = wrErase wid s.wr)
    (hnext : t.widNext = s.widNext) (hnow : t.now = s.now) : WrInv t := by
  obtain ⟨hsorted, hrec⟩ := h
  rw [WrInv, hwr, hnext, hnow]
  exact ⟨wrErase_sorted wid hsorted, fun r hr => hrec r (mem_wrErase.mp hr).1⟩

/-- Transmitting an entry keeps the invariant of `WR`: the key is issued now, and a retry is not early. -/
theorem WrInv.transmit {s : State} (h : WrInv s) {kind : WriteKind} {e : Pending} (hsent : e.tSend ≤ s.now)
    (hretry : kind = .retry → e.tSend + Config.tMin ≤ s.now) : WrInv (s.transmit kind e) := by
  obtain ⟨hsorted, hrec⟩ := h
  refine ⟨wrInsert_sorted _ hsorted, fun r hr => ?_⟩
  rcases mem_wrInsert hr with rfl | hr
  · exact ⟨Nat.lt_succ_self _, hsent, hretry⟩
  · obtain ⟨hwid, hr⟩ := hrec r hr
    exact ⟨Nat.lt_succ_of_lt hwid, hr⟩

/-- The records of `WR` stay right as time goes on. -/
theorem WrInv.tick {s : State} (h : WrInv s) {u : Nat} (hu : s.now ≤ u) : WrInv { s with now := u } := by
  obtain ⟨hsorted, hrec⟩ := h
  refine ⟨hsorted, fun r hr => ?_⟩
  obtain ⟨hwid, hsent, hretry⟩ := hrec r hr
  exact ⟨hwid, hsent.trans hu, fun hk => (hretry hk).trans hu⟩

/-- A step keeps time or moves it on. -/
theorem EventEffect.now_le {s t : State} {i : Instr} (h : EventEffect s i t) : s.now ≤ t.now := by
  cases h
  case feed h => exact (execFeed_frame h).now.ge
  case ticked hu => exact hu
  all_goals exact le_rfl

/-- Each invariant of the tables, through one event. -/
theorem StatsInv.event {s t : State} {i : Instr} (hs : StatsInv s) (h : EventEffect s i t) : StatsInv t := by
  obtain ⟨hvalid, hmin, hmax, hcrc⟩ := hs
  cases h
  case feed h =>
    have hframe := execFeed_frame h
    exact ⟨hframe.cfg ▸ hvalid, hframe.T ▸ hmin, hframe.T ▸ hmax, hframe.cfg ▸ execFeed_crcerr_lt hcrc h⟩
  case wholeWritten => exact ⟨hvalid, le_max_left _ _, max_le (by decide) ((Nat.sub_le _ _).trans hmax), hcrc⟩
  case retryWritten => exact ⟨hvalid, (clamp_bounds (by decide) _).1, (clamp_bounds (by decide) _).2, hcrc⟩
  case reset | linkReset => exact ⟨hvalid, hvalid.1, hvalid.2.1, Nat.two_pow_pos _⟩
  all_goals exact ⟨hvalid, hmin, hmax, hcrc⟩

theorem PendInv.event {s t : State} {i : Instr} (hstats : StatsInv s) (hs : PendInv s) (h : EventEffect s i t) :
    PendInv t := by
  obtain ⟨-, hmin, hmax, -⟩ := hstats
  have hnow := h.now_le
  cases h
  case feed h => exact hs.sublist (execFeed_frame h).pend hnow
  case sendTransmitted hfresh hob => exact hs.enqueue hob hmin hmax hfresh
  case sendCoalesced hfresh hob => exact hs.enqueue hob hmin hmax hfresh
  case timerFired hpend _ harmed _ => exact hs.fire hpend harmed
  case reset | linkReset => exact hs.sublist (List.nil_sublist _) hnow
  all_goals exact hs.sublist (List.Sublist.refl _) hnow

theorem WrInv.event {s t : State} {i : Instr} (hpend : PendInv s) (hs : WrInv s) (h : EventEffect s i t) : WrInv t := by
  cases h
  case feed h =>
    have hframe := execFeed_frame h
    rw [WrInv, hframe.wr, hframe.widNext, hframe.now]
    exact hs
  case sendTransmitted => exact WrInv.transmit (s := s.enqueue _) hs le_rfl (fun hk => nomatch hk)
  case timerFired pre post e d hsplit _ harmed hdue =>
    obtain ⟨-, hsent, hdead⟩ := hpend.1 e (by simp [hsplit])
    exact WrInv.transmit (s := { s with pend := _ }) hs hsent (fun _ => (hdead d harmed).1.trans hdue)
  case wholeWritten | partWritten | retryWritten => exact hs.erase rfl rfl rfl
  case ticked hu => exact hs.tick hu
  all_goals exact hs

/-- An entry after an event was there, has just fired, or is the one appended. -/
theorem EventEffect.mem_pend {s t : State} {i : Instr} (h : EventEffect s i t) {e' : Pending} (he' : e' ∈ t.pend) :
    e' ∈ s.pend ∨
    (∃ e ∈ s.pend, ∃ d, e.timer = .armed d ∧ d ≤ s.now ∧ e' = { e with timer := .fired }) ∨
    (t.pend = s.pend ++ [e'] ∧ e'.tSend = s.now ∧ (e'.timer = .none ∨ e'.timer = .armed (s.now + s.T))) := by
  cases h
  case feed h => exact .inl ((execFeed_frame h).pend.subset he')
  case sendTransmitted | sendCoalesced =>
    rcases List.mem_append.mp he' with hold | hnew
    · exact .inl hold
    · obtain rfl := List.mem_singleton.mp hnew
      exact .inr (.inr ⟨rfl, rfl, newPending_timer.imp And.left And.left⟩)
  case timerFired pre post e d hpend _ harmed hdue =>
    rw [hpend]
    rcases List.mem_append.mp he' with hpre | htail
    · exact .inl (List.mem_append_left _ hpre)
    rcases List.mem_cons.mp htail with hfired | hpost
    · exact .inr (.inl ⟨e, by simp, d, harmed, hdue, hfired⟩)
    · exact .inl (by simp [hpost])
  case reset | linkReset => cases he'
  all_goals exact .inl he'

end Sys2Proof.Machine

open Sys2Proof Sys2Proof.Machine

/-- Settles O7: the word decoded is the instruction run. -/
theorem stepRunsDecodedInstruction : Obligations.StepRunsDecodedInstruction := by
  intro s w rest i hin hdec
  rw [step_of_event hin, runEvent_of_decode hdec]
  rfl

/-- Settles O8: settling an outcome that raises is recording it. -/
theorem raisedEventIsOnlyRecorded : Obligations.RaisedEventIsOnlyRecorded := by
  refine fun s w rest hin => ⟨fun f hf => ?_, fun r hr => ?_⟩
  · rw [step_of_event hin, State.takeEvent, hf]
    rfl
  · rw [step_of_event hin, State.takeEvent, hr]
    rfl

/-- Settles O9: a step holds the state, executes an instruction, which leaves the log, or records. -/
theorem faultLogNeverCleared : Obligations.FaultLogNeverCleared := by
  intro s t h
  rcases step_cases h with ⟨-, rfl⟩ | ⟨w, rest, hin, ⟨i, -, ht⟩ | ⟨e, rfl⟩⟩
  · exact .inl rfl
  · exact .inl (exec_frame ht).2.1
  · exact .inr ⟨e, by rw [hin]; rfl⟩

/-- Settles O10: settling always has a next state, and no instruction writes the parameters or the input. -/
theorem stepTakesOneEvent : Obligations.StepTakesOneEvent := by
  refine ⟨fun s => step_of_no_event, fun s => ?_⟩
  have hnext : ∃ t, step s = .next t := by
    rcases hin : s.input with _ | ⟨w, rest⟩
    · exact ⟨s, step_of_no_event hin⟩
    · rw [step_of_event hin]
      exact settle_next _ _
  obtain ⟨t, ht⟩ := hnext
  refine ⟨t, ht, ?_⟩
  rcases step_cases ht with ⟨hin, rfl⟩ | ⟨w, rest, hin, ⟨i, -, hexec⟩ | ⟨e, rfl⟩⟩
  · exact ⟨rfl, by rw [hin]; rfl⟩
  · obtain ⟨hcfg, -, hinput⟩ := exec_frame hexec
    exact ⟨hcfg, by rw [hinput, hin]; rfl⟩
  · exact ⟨rfl, by rw [hin]; rfl⟩

/-- Settles O49: a timeout window is clamped or set by the parameters, and `crcerr` is counted modulo its width. -/
theorem statsInvKept : Obligations.StatsInvKept :=
  fun _ _ => step_leads (fun _ h => h) (fun _ _ h => h) (fun _ _ _ h => h) (fun _ _ _ => StatsInv.event)

/-- Settles O50: the bounds of `T` bound the deadline of a new entry. -/
theorem pendInvKept : Obligations.PendInvKept := by
  intro s t hstats hpend
  exact step_leads (P := fun s => StatsInv s ∧ PendInv s) (fun _ h => h.2) (fun _ _ h => h) (fun _ _ _ h => h.2)
    (fun _ _ _ hs => PendInv.event hs.1 hs.2) ⟨hstats, hpend⟩

/-- Settles O51: the bound on a deadline in `PEND` keeps a retry from being early. -/
theorem wrInvKept : Obligations.WrInvKept := by
  intro s t hpend hwr
  exact step_leads (P := fun s => PendInv s ∧ WrInv s) (fun _ h => h.2) (fun _ _ h => h) (fun _ _ _ h => h.2)
    (fun _ _ _ hs => WrInv.event hs.1 hs.2) ⟨hpend, hwr⟩

/-- Settles O53: only SEND appends an entry, only TIMER_FIRE changes one, and every other event keeps or removes
entries. -/
theorem pendingEntriesEvolve : Obligations.PendingEntriesEvolve := by
  intro s t h e' he'
  rcases step_cases h with ⟨-, rfl⟩ | ⟨w, rest, -, ⟨i, hi, ht⟩ | ⟨e, rfl⟩⟩
  · exact .inl he'
  · exact (eventEffect_of_exec (isRow_of_decodeEvent hi) ht).mem_pend he'
  · exact .inl he'

/-- Settles O54: FEED counts as the row it selects does, and of the rows only the checksum rows count. -/
theorem crcerrCountsInvalidFrames : Obligations.CrcerrCountsInvalidFrames := by
  intro i s t h
  by_cases hrow : isRow i = true
  · rw [exec_eq_performRow hrow] at h
    rw [performRow_crcerr h]
    cases i
    case checksumV1 | checksumV2 => exact crcerrAfter_validFlag _ _ _ _
    case feed | reset | link => cases hrow
    all_goals rfl
  · cases eventEffect_of_exec (Bool.not_eq_true _ ▸ hrow) h
    case feed h => exact execFeed_crcerr h
    case linkKept hc => exact (if_pos hc).symm
    case linkReset hc => exact (if_neg hc).symm
    case value hi =>
      cases i
      case crc8Step | crc8 | xor8 | encodeV1 | encodeV2 | encode => rfl
      all_goals cases hi
    all_goals rfl

/-- Settles O55: TICK refuses an earlier time, and nothing else writes `now`. -/
theorem timeAdvancesOnlyByTick : Obligations.TimeAdvancesOnlyByTick := by
  refine ⟨fun s t h => ?_, fun i s t h hnow => ?_⟩
  · rcases step_cases h with ⟨-, rfl⟩ | ⟨w, rest, -, ⟨i, hi, ht⟩ | ⟨e, rfl⟩⟩
    · exact le_rfl
    · exact (eventEffect_of_exec (isRow_of_decodeEvent hi) ht).now_le
    · exact le_rfl
  · by_cases hrow : isRow i = true
    · rw [exec_eq_performRow hrow] at h
      exact absurd (performRow_frame h).now hnow
    · cases eventEffect_of_exec (Bool.not_eq_true _ ▸ hrow) h
      case feed h => exact absurd (execFeed_frame h).now hnow
      case ticked => rfl
      all_goals exact absurd rfl hnow

end

section
/-! SUPPORT. What one wire byte does to the decoder, state by state: it has a next state, follows the transition map and
keeps the decoder's invariant (spec 30_encoding.md R85, 42_decoder.md R164 to R167). -/

namespace Sys2Proof.Machine

/-! ### The checksums of a sequence and one byte more -/

theorem xor8_concat (bs : List Byte) (b : Byte) : xor8 (bs ++ [b]) = xor8 bs ^^^ b := by
  rw [xor8_append, xor8_singleton]

theorem crc8_concat (c : Byte) (bs : List Byte) (b : Byte) : crc8 c (bs ++ [b]) = crcStep (crc8 c bs) b := by
  rw [crc8_append, crc8_cons, crc8_nil]

/-! ### The rows with more than one outcome -/

/-- A byte no direction row names has the effect of every direction byte: `dir` is left, `unsup` is cleared. -/
theorem State.direction_other_goto {b : Byte} (hFrom : b ≠ 0x3E) (hTo : b ≠ 0x3C) (hUnsup : b ≠ 0x21) (s : State)
    (st : DecState) : (s.direction b).goto st = { s with unsup := false, state := st } := by
  have hflag : unsupFlag b = false := by simpa [unsupFlag] using hUnsup
  rw [State.direction, hflag, if_neg hFrom, if_neg hTo]
  rfl

/-- Whatever the direction byte, V1 writes its effect and moves on. -/
theorem execFeed_directionV1_eq (b : Byte) {s : State} (h : s.state = DecState.directionV1) :
    execFeed b s = .next ((s.direction b).goto DecState.payloadLengthV1) := by
  rw [execFeed_directionV1 b s h]
  split_ifs with hFrom hTo hUnsup
  · rw [hFrom, execDirV1From]
  · rw [hTo, execDirV1To]
  · rw [hUnsup, execDirV1Unsup]
  · rw [execDirV1Other, State.direction_other_goto hFrom hTo hUnsup]

/-- Whatever the direction byte, V2 writes its effect and moves on. -/
theorem execFeed_directionV2_eq (b : Byte) {s : State} (h : s.state = DecState.directionV2) :
    execFeed b s = .next ((s.direction b).goto DecState.flagV2) := by
  rw [execFeed_directionV2 b s h]
  split_ifs with hFrom hTo hUnsup
  · rw [hFrom, execDirV2From]
  · rw [hTo, execDirV2To]
  · rw [hUnsup, execDirV2Unsup]
  · rw [execDirV2Other, State.direction_other_goto hFrom hTo hUnsup]

/-- A payload byte that has room is appended (20_memory.md R52, 42_decoder.md R166 and R167). -/
theorem payloadByte_of_room {s : State} (h : s.buf.length < s.cap.toNat) (b acc : Byte) (done : DecState) :
    s.payloadByte b acc done =
      .next { s with
        buf := s.buf ++ [b], lenRcv := s.lenRcv + 1, acc := acc
        state := if s.lenRcv + 1 = s.lenExp then done else s.state } := by
  rw [State.payloadByte, State.bufAppend, if_pos h]
  rfl

theorem payloadByte_of_full {s : State} (h : s.cap.toNat ≤ s.buf.length) (b acc : Byte) (done : DecState) :
    s.payloadByte b acc done = .fault (.badState s.state) := by
  rw [State.payloadByte, bufAppend_eq_none.mpr h]

theorem execPayloadV1_of_length {s : State} (h : s.lenExp ≠ 0) (b : Byte) :
    execPayloadV1 b s = s.payloadByte b (s.acc ^^^ b) DecState.checksumV1 := if_neg h

theorem execPayloadV1_absorbOne {s : State} (hlen : s.lenExp = 0) (h : s.cfg.jumboZero = .absorbOne) (b : Byte) :
    execPayloadV1 b s = .next { s with acc := s.acc ^^^ b, state := DecState.checksumV1 } := by
  rw [execPayloadV1, if_pos hlen, State.jumboZeroByte, h]
  rfl

theorem execPayloadV1_absorbForever {s : State} (hlen : s.lenExp = 0) (h : s.cfg.jumboZero = .absorbForever)
    (b : Byte) : execPayloadV1 b s = .next s := by
  rw [execPayloadV1, if_pos hlen, State.jumboZeroByte, h]

theorem execPayloadV1_directChecksum {s : State} (hlen : s.lenExp = 0) (h : s.cfg.jumboZero = .directChecksum)
    (b : Byte) : execPayloadV1 b s = .fault (.badState s.state) := by
  rw [execPayloadV1, if_pos hlen, State.jumboZeroByte, h]

/-! ### Lengths -/

/-- A received 16-bit field is 0 when both its bytes are. -/
theorem joinHi_eq_zero {v : Half} (h : hiByte v = 0) (b : Byte) : joinHi v b = 0 ↔ b = 0 ∧ v = 0 := by
  simp only [← BitVec.toNat_inj, toNat_joinHi h]
  simp
  omega

/-- The count of a buffer that is not complete does not wrap. -/
theorem toNat_succ_of_lt {n len : Half} {k : Nat} (hn : n.toNat = k) (hk : k < len.toNat) : (n + 1).toNat = k + 1 := by
  have := len.isLt
  rw [BitVec.toNat_add, hn]
  exact Nat.mod_eq_of_lt (by simp; omega)

theorem BufferInv.toNat_succ {s : State} (h : BufferInv s) (hroom : s.buf.length < s.lenExp.toNat) :
    (s.lenRcv + 1).toNat = s.buf.length + 1 := by
  obtain ⟨-, hrcv, -⟩ := h
  exact toNat_succ_of_lt hrcv hroom

/-- The last byte is the one that makes the buffer as long as expected. -/
theorem BufferInv.last_iff {s : State} (h : BufferInv s) (hroom : s.buf.length < s.lenExp.toNat) :
    s.lenRcv + 1 = s.lenExp ↔ s.buf.length + 1 = s.lenExp.toNat := by
  rw [← BitVec.toNat_inj, h.toNat_succ hroom]

/-- The buffer stays right when a byte is appended that has room. -/
theorem BufferInv.append {s t : State} (h : BufferInv s) (hroom : s.buf.length < s.lenExp.toNat) {b : Byte}
    (hbuf : t.buf = s.buf ++ [b]) (hrcv : t.lenRcv = s.lenRcv + 1) (hcap : t.cap = s.cap) (hlen : t.lenExp = s.lenExp) :
    BufferInv t := by
  rw [BufferInv, hcap, hlen, hrcv, h.toNat_succ hroom, hbuf, List.length_append]
  exact ⟨h.1, rfl, hroom⟩

/-! ### The bytes covered -/

theorem eq_xor8_coveredV1 {s : State} {acc : Byte} (hj : s.jumbo = false)
    (h : acc = xor8 ([loByte s.lenExp, loByte s.code] ++ s.buf)) : acc = xor8 (coveredV1 s) := by
  rw [coveredV1, hj]
  exact h

theorem eq_xor8_coveredV1_jumbo {s : State} {acc : Byte} (hj : s.jumbo = true)
    (h : acc = xor8 ([0xFF, loByte s.code, loByte s.lenExp, hiByte s.lenExp] ++ s.buf)) : acc = xor8 (coveredV1 s) := by
  rw [coveredV1, hj]
  exact h

/-- A payload byte appended is one byte more covered, in V1. -/
theorem eq_xor8_coveredV1_append {s t : State} {b : Byte} (h : s.acc = xor8 (coveredV1 s)) (hj : t.jumbo = s.jumbo)
    (hc : t.code = s.code) (hl : t.lenExp = s.lenExp) (hb : t.buf = s.buf ++ [b]) :
    s.acc ^^^ b = xor8 (coveredV1 t) := by
  have hcov : coveredV1 t = coveredV1 s ++ [b] := by rw [coveredV1, coveredV1, hj, hc, hl, hb, List.append_assoc]
  rw [hcov, xor8_concat, h]

/-- A payload byte appended is one byte more covered, in V2. -/
theorem eq_crc8_coveredV2_append {s t : State} {b : Byte} (h : s.acc = crc8 0 (coveredV2 s)) (hc : t.code = s.code)
    (hl : t.lenExp = s.lenExp) (hb : t.buf = s.buf ++ [b]) : crcStep s.acc b = crc8 0 (coveredV2 t) := by
  have hcov : coveredV2 t = coveredV2 s ++ [b] := by rw [coveredV2, coveredV2, hc, hl, hb, List.append_assoc]
  rw [hcov, crc8_concat, h]

/-! ### The buffer under the decoder's invariant -/

/-- The buffer's length is counted, within the capacity and within the length expected. -/
abbrev BufferInBounds (s : State) : Prop :=
  s.lenRcv.toNat = s.buf.length ∧ s.buf.length ≤ s.cap.toNat ∧ s.lenRcv.toNat ≤ s.lenExp.toNat

theorem NoBuffer.inBounds {s : State} (h : NoBuffer s) : BufferInBounds s := by
  obtain ⟨hrcv, hbuf, -⟩ := h
  simp [BufferInBounds, hrcv, hbuf]

theorem FieldsClear.inBounds {s : State} (h : FieldsClear s) : BufferInBounds s := by
  obtain ⟨-, hrcv, hbuf, hcap, -⟩ := h
  exact NoBuffer.inBounds ⟨hrcv, hbuf, hcap⟩

theorem BufferInv.inBounds {s : State} (h : BufferInv s) : BufferInBounds s := by
  obtain ⟨hcap, hrcv, hle⟩ := h
  exact ⟨hrcv, hcap ▸ hle, hrcv ▸ hle⟩

/-- The decoder's invariant bounds the buffer in every state, and leaves no reserved state. -/
theorem DecoderInv.inBounds {s : State} (h : DecoderInv s) : BufferInBounds s ∧ s.state.toNat ≤ 17 := by
  unfold DecoderInv at h
  split at h
  case h_1 | h_2 | h_3 | h_4 => exact ⟨FieldsClear.inBounds h.1, by omega⟩
  case h_5 | h_6 | h_7 => exact ⟨FieldsClear.inBounds h, by omega⟩
  case h_8 | h_9 | h_10 | h_11 | h_13 | h_14 => exact ⟨NoBuffer.inBounds h.1, by omega⟩
  case h_12 | h_15 | h_16 | h_17 | h_18 => exact ⟨BufferInv.inBounds h.1, by omega⟩
  case h_19 => exact h.elim

theorem reserved_ge {st : DecState}
    (h : (∃ lo : BitVec 1, st = 9#4 ++ lo) ∨ (∃ lo : BitVec 2, st = 5#3 ++ lo) ∨ (∃ lo : BitVec 3, st = 3#2 ++ lo)) :
    18 ≤ st.toNat := by
  rcases h with ⟨lo, rfl⟩ | ⟨lo, rfl⟩ | ⟨lo, rfl⟩ <;> revert lo <;> decide

/-! ### FEED under the decoder's invariant -/

/-- FEED completes, follows the transition map and keeps the decoder's invariant. -/
def FeedFollows (s : State) (b : Byte) : Prop :=
  ∃ t, execFeed b s = .next t ∧ t.state = nextDecState s b ∧ DecoderInv t

/-- The decoder's invariant, read in a known state. -/
theorem DecoderInv.read {s : State} (h : DecoderInv s) {st : DecState} (hst : s.state = st) :
    DecoderInv { s with state := st } := hst ▸ h

/-- FEED follows the map when it does so for the state written out. -/
theorem FeedFollows.of_state {s t : State} {b : Byte} {st : DecState} (hst : s.state = st)
    (hrow : execFeed b s = .next t) (hnext : t.state = nextDecState { s with state := st } b) (hinv : DecoderInv t) :
    FeedFollows s b := ⟨t, hrow, by subst hst; exact hnext, hinv⟩

section
variable {s : State} (b : Byte)

theorem feedFollows_checksumV1 (hst : s.state = DecState.checksumV1) : FeedFollows s b :=
  .of_state hst (execFeed_checksumV1 b s hst) rfl ⟨⟨rfl, rfl, rfl, rfl, rfl, rfl, rfl⟩, rfl, rfl⟩

theorem feedFollows_checksumV2 (hst : s.state = DecState.checksumV2) : FeedFollows s b :=
  .of_state hst (execFeed_checksumV2 b s hst) rfl ⟨⟨rfl, rfl, rfl, rfl, rfl, rfl, rfl⟩, rfl, rfl⟩

variable (h : DecoderInv s)
include h

theorem feedFollows_idle (hst : s.state = DecState.idle) : FeedFollows s b := by
  have hinv : FieldsClear s ∧ s.dir = 0 ∧ s.unsup = false := h.read hst
  have hrow := execFeed_idle b s hst
  by_cases hb : b = 0x24
  · exact .of_state hst (hrow.trans (if_pos hb)) (if_pos hb).symm hinv
  · exact .of_state hst (hrow.trans (if_neg hb)) (hst.trans (if_neg hb).symm) h

theorem feedFollows_protoIdentifier (hst : s.state = DecState.protoIdentifier) : FeedFollows s b := by
  have hinv : FieldsClear s ∧ s.dir = 0 ∧ s.unsup = false := h.read hst
  have hrow := execFeed_protoIdentifier b s hst
  by_cases hM : b = 0x4D
  · exact .of_state hst (hrow.trans (if_pos hM)) (if_pos hM).symm hinv
  by_cases hX : b = 0x58
  · exact .of_state hst (hrow.trans ((if_neg hM).trans (if_pos hX))) ((if_neg hM).trans (if_pos hX)).symm hinv
  · exact .of_state hst (hrow.trans ((if_neg hM).trans (if_neg hX))) ((if_neg hM).trans (if_neg hX)).symm hinv

theorem feedFollows_directionV1 (hst : s.state = DecState.directionV1) : FeedFollows s b := by
  have hinv : FieldsClear s ∧ s.dir = 0 ∧ s.unsup = false := h.read hst
  exact .of_state hst (execFeed_directionV1_eq b hst) rfl hinv.1

theorem feedFollows_directionV2 (hst : s.state = DecState.directionV2) : FeedFollows s b := by
  have hinv : FieldsClear s ∧ s.dir = 0 ∧ s.unsup = false := h.read hst
  exact .of_state hst (execFeed_directionV2_eq b hst) rfl hinv.1

theorem feedFollows_flagV2 (hst : s.state = DecState.flagV2) : FeedFollows s b := by
  obtain ⟨hlen, hrcv, hbuf, hcap, -, hjumbo, hcode⟩ : FieldsClear s := h.read hst
  exact .of_state hst (execFeed_flagV2 b s hst) rfl ⟨hlen, hrcv, hbuf, hcap, crcStep_zero_zero, hjumbo, hcode⟩

theorem feedFollows_payloadLengthV1 (hst : s.state = DecState.payloadLengthV1) : FeedFollows s b := by
  obtain ⟨hlen, hrcv, hbuf, hcap, -, hjumbo, hcode⟩ : FieldsClear s := h.read hst
  have hrow := execFeed_payloadLengthV1 b s hst
  by_cases hb : b = 0xFF
  · exact .of_state hst (hrow.trans (if_pos hb)) (if_pos hb).symm ⟨⟨hrcv, hbuf, hcap⟩, rfl, rfl, hcode, rfl⟩
  · have hle : (zext16 b).toNat ≤ 254 := by
      have : b.toNat ≠ 255 := fun e => hb (BitVec.eq_of_toNat_eq e)
      simp [zext16]
      omega
    exact .of_state hst (hrow.trans (if_neg hb)) (if_neg hb).symm
      ⟨⟨rfl, by simp [hrcv], Nat.zero_le _⟩, rfl, hjumbo, hle, hcode, (loByte_zext16 b).symm⟩

theorem feedFollows_payloadLengthJumboLow (hst : s.state = DecState.payloadLengthJumboLow) : FeedFollows s b := by
  obtain ⟨hnobuf, hjumbo, -, hcode, hacc⟩ :
    NoBuffer s ∧ s.jumbo = true ∧ s.lenExp = 255 ∧ hiByte s.code = 0 ∧ s.acc = xor8 [0xFF, loByte s.code] := h.read hst
  have hcov : s.acc ^^^ b = xor8 [0xFF, loByte s.code, loByte (zext16 b)] := by
    rw [loByte_zext16, hacc]
    exact (xor8_concat [0xFF, loByte s.code] b).symm
  exact .of_state hst (execFeed_payloadLengthJumboLow b s hst) rfl ⟨hnobuf, hjumbo, hiByte_zext16 b, hcode, hcov⟩

theorem feedFollows_payloadLengthJumboHigh (hst : s.state = DecState.payloadLengthJumboHigh) : FeedFollows s b := by
  obtain ⟨⟨hrcv, hbuf, hcap⟩, hjumbo, hhi, hcode, hacc⟩ :
    NoBuffer s ∧ s.jumbo = true ∧ hiByte s.lenExp = 0 ∧ hiByte s.code = 0 ∧
      s.acc = xor8 [0xFF, loByte s.code, loByte s.lenExp] := h.read hst
  have hbuffer : BufferInv { s with lenExp := joinHi s.lenExp b, cap := joinHi s.lenExp b, buf := [] } :=
    ⟨rfl, by simp [hrcv], Nat.zero_le _⟩
  have hcov : s.acc ^^^ b = xor8 [0xFF, loByte s.code, loByte (joinHi s.lenExp b), hiByte (joinHi s.lenExp b)] := by
    rw [loByte_joinHi hhi, hiByte_joinHi hhi, hacc]
    exact (xor8_concat [0xFF, loByte s.code, loByte s.lenExp] b).symm
  have hrow := execFeed_payloadLengthJumboHigh b s hst
  rw [execJlenHi, afterJumboLength_eq] at hrow
  have hzero := joinHi_eq_zero hhi b
  by_cases hdirect : joinHi s.lenExp b = 0 ∧ s.cfg.jumboZero = .directChecksum
  · rw [if_pos hdirect] at hrow
    refine .of_state hst hrow (if_pos ?_).symm ⟨hbuffer, hcode, ?_, ?_, .inl (eq_xor8_coveredV1_jumbo hjumbo hcov)⟩
    · exact ⟨(hzero.mp hdirect.1).1, (hzero.mp hdirect.1).2, hdirect.2⟩
    · exact fun hj => absurd (hj : s.jumbo = false) (by simp [hjumbo])
    · simp [hdirect.1]
  · rw [if_neg hdirect] at hrow
    refine .of_state hst hrow (if_neg ?_).symm ⟨hbuffer, hcode, ?_, eq_xor8_coveredV1_jumbo hjumbo hcov, ?_⟩
    · exact fun hb => hdirect ⟨hzero.mpr ⟨hb.1, hb.2.1⟩, hb.2.2⟩
    · exact fun hj => absurd (hj : s.jumbo = false) (by simp [hjumbo])
    · by_cases hlen : joinHi s.lenExp b = 0
      · exact .inr ⟨hlen, hjumbo, fun hp => hdirect ⟨hlen, hp⟩⟩
      · exact .inl (Nat.pos_of_ne_zero fun hn => hlen (BitVec.eq_of_toNat_eq hn))

theorem feedFollows_payloadLengthV2Low (hst : s.state = DecState.payloadLengthV2Low) : FeedFollows s b := by
  obtain ⟨hnobuf, hjumbo, -, hacc⟩ :
    NoBuffer s ∧ s.jumbo = false ∧ s.lenExp = 0 ∧ s.acc = crc8 0 [0, loByte s.code, hiByte s.code] := h.read hst
  have hcov : crcStep s.acc b = crc8 0 [0, loByte s.code, hiByte s.code, loByte (zext16 b)] := by
    rw [loByte_zext16, hacc]
    exact (crc8_concat 0 [0, loByte s.code, hiByte s.code] b).symm
  exact .of_state hst (execFeed_payloadLengthV2Low b s hst) rfl ⟨hnobuf, hjumbo, hiByte_zext16 b, hcov⟩

theorem feedFollows_payloadLengthV2High (hst : s.state = DecState.payloadLengthV2High) : FeedFollows s b := by
  obtain ⟨⟨hrcv, hbuf, hcap⟩, hjumbo, hhi, hacc⟩ :
    NoBuffer s ∧ s.jumbo = false ∧ hiByte s.lenExp = 0 ∧
      s.acc = crc8 0 [0, loByte s.code, hiByte s.code, loByte s.lenExp] := h.read hst
  have hbuffer : BufferInv { s with lenExp := joinHi s.lenExp b, cap := joinHi s.lenExp b, buf := [] } :=
    ⟨rfl, by simp [hrcv], Nat.zero_le _⟩
  have hcov : crcStep s.acc b =
      crc8 0 ([0, loByte s.code, hiByte s.code, loByte (joinHi s.lenExp b), hiByte (joinHi s.lenExp b)] ++ []) := by
    rw [loByte_joinHi hhi, hiByte_joinHi hhi, hacc]
    exact (crc8_concat 0 [0, loByte s.code, hiByte s.code, loByte s.lenExp] b).symm
  have hrow := execFeed_payloadLengthV2High b s hst
  have hzero := joinHi_eq_zero hhi b
  by_cases hlen : joinHi s.lenExp b = 0
  · rw [execLenV2Hi, if_pos hlen] at hrow
    exact .of_state hst hrow (if_pos (hzero.mp hlen)).symm ⟨hbuffer, hjumbo, hcov, by simp [hlen]⟩
  · rw [execLenV2Hi, if_neg hlen] at hrow
    exact .of_state hst hrow (if_neg (fun hb => hlen (hzero.mpr hb))).symm
      ⟨hbuffer, hjumbo, hcov, Nat.pos_of_ne_zero fun hn => hlen (BitVec.eq_of_toNat_eq hn)⟩

theorem feedFollows_codeV1 (hst : s.state = DecState.codeV1) : FeedFollows s b := by
  obtain ⟨hbuffer, hbuf, hjumbo, hle, -, hacc⟩ :
    BufferInv s ∧ s.buf = [] ∧ s.jumbo = false ∧ s.lenExp.toNat ≤ 254 ∧ s.code = 0 ∧
      s.acc = loByte s.lenExp := h.read hst
  have hcov : s.acc ^^^ b = xor8 ([loByte s.lenExp, loByte (zext16 b)] ++ s.buf) := by
    rw [hbuf, hacc, loByte_zext16, List.append_nil]
    exact ((xor8_concat [loByte s.lenExp] b).trans (by rw [xor8_singleton])).symm
  have hrow := execFeed_codeV1 b s hst
  by_cases hlen : s.lenExp = 0
  · rw [execCodeV1, if_pos hlen] at hrow
    exact .of_state hst hrow (if_pos hlen).symm
      ⟨hbuffer, hiByte_zext16 b, fun _ => hle, by simp [hbuf, hlen], .inl (eq_xor8_coveredV1 hjumbo hcov)⟩
  · rw [execCodeV1, if_neg hlen] at hrow
    have hpos : s.buf.length < s.lenExp.toNat := by
      rw [hbuf]
      exact Nat.pos_of_ne_zero fun hn => hlen (BitVec.eq_of_toNat_eq hn)
    exact .of_state hst hrow (if_neg hlen).symm
      ⟨hbuffer, hiByte_zext16 b, fun _ => hle, eq_xor8_coveredV1 hjumbo hcov, .inl hpos⟩

theorem feedFollows_codeJumboV1 (hst : s.state = DecState.codeJumboV1) : FeedFollows s b := by
  obtain ⟨hnobuf, hjumbo, hlen, -, hacc⟩ :
    NoBuffer s ∧ s.jumbo = true ∧ s.lenExp = 255 ∧ s.code = 0 ∧ s.acc = 0xFF := h.read hst
  have hcov : s.acc ^^^ b = xor8 [0xFF, loByte (zext16 b)] := by
    rw [loByte_zext16, hacc]
    exact (xor8_concat [0xFF] b).symm
  exact .of_state hst (execFeed_codeJumboV1 b s hst) rfl ⟨hnobuf, hjumbo, hlen, hiByte_zext16 b, hcov⟩

theorem feedFollows_codeV2Low (hst : s.state = DecState.codeV2Low) : FeedFollows s b := by
  obtain ⟨hlen, hrcv, hbuf, hcap, hacc, hjumbo, -⟩ : FieldsClear s := h.read hst
  have hcov : crcStep s.acc b = crc8 0 [0, loByte (zext16 b)] := by
    rw [loByte_zext16, hacc, crc8_cons, crcStep_zero_zero]
    rfl
  exact .of_state hst (execFeed_codeV2Low b s hst) rfl ⟨⟨hrcv, hbuf, hcap⟩, hjumbo, hlen, hiByte_zext16 b, hcov⟩

theorem feedFollows_codeV2High (hst : s.state = DecState.codeV2High) : FeedFollows s b := by
  obtain ⟨hnobuf, hjumbo, hlen, hhi, hacc⟩ :
    NoBuffer s ∧ s.jumbo = false ∧ s.lenExp = 0 ∧ hiByte s.code = 0 ∧ s.acc = crc8 0 [0, loByte s.code] := h.read hst
  have hcov : crcStep s.acc b = crc8 0 [0, loByte (joinHi s.code b), hiByte (joinHi s.code b)] := by
    rw [loByte_joinHi hhi, hiByte_joinHi hhi, hacc]
    exact (crc8_concat 0 [0, loByte s.code] b).symm
  exact .of_state hst (execFeed_codeV2High b s hst) rfl ⟨hnobuf, hjumbo, hlen, hcov⟩

theorem feedFollows_payloadV1 (hst : s.state = DecState.payloadV1) : FeedFollows s b := by
  obtain ⟨hbuffer, hcode, hle, hacc, hmore⟩ :
    BufferInv s ∧ hiByte s.code = 0 ∧ (s.jumbo = false → s.lenExp.toNat ≤ 254) ∧ s.acc = xor8 (coveredV1 s) ∧
      (s.buf.length < s.lenExp.toNat ∨ s.lenExp = 0 ∧ s.jumbo = true ∧ s.cfg.jumboZero ≠ .directChecksum) := h.read hst
  have hrow := execFeed_payloadV1 b s hst
  by_cases hlen : s.lenExp = 0
  · obtain hroom | ⟨-, hjumbo, hpolicy⟩ := hmore
    · simp [hlen] at hroom
    have hfull : s.buf.length = s.lenExp.toNat := Nat.le_antisymm hbuffer.2.2 (by simp [hlen])
    by_cases hone : s.cfg.jumboZero = .absorbOne
    · exact .of_state hst (hrow.trans (execPayloadV1_absorbOne hlen hone b)) ((if_pos hlen).trans (if_pos hone)).symm
        ⟨hbuffer, hcode, hle, hfull, .inr ⟨hlen, hjumbo, hone⟩⟩
    · have hforever : s.cfg.jumboZero = .absorbForever := by
        cases hp : s.cfg.jumboZero <;> simp_all
      exact .of_state hst (hrow.trans (execPayloadV1_absorbForever hlen hforever b))
        (hst.trans ((if_pos hlen).trans (if_neg hone)).symm) h
  · have hroom : s.buf.length < s.lenExp.toNat := hmore.resolve_right fun hz => hlen hz.1
    have hcap : s.buf.length < s.cap.toNat := hbuffer.1 ▸ hroom
    rw [execPayloadV1_of_length hlen, payloadByte_of_room hcap] at hrow
    by_cases hlast : s.buf.length + 1 = s.lenExp.toNat
    · rw [if_pos ((hbuffer.last_iff hroom).mpr hlast)] at hrow
      exact .of_state hst hrow ((if_neg hlen).trans (if_pos hlast)).symm
        ⟨hbuffer.append hroom rfl rfl rfl rfl, hcode, hle, by simpa using hlast,
          .inl (eq_xor8_coveredV1_append hacc rfl rfl rfl rfl)⟩
    · rw [if_neg (fun e => hlast ((hbuffer.last_iff hroom).mp e)), hst] at hrow
      exact .of_state hst hrow ((if_neg hlen).trans (if_neg hlast)).symm
        ⟨hbuffer.append hroom rfl rfl rfl rfl, hcode, hle, eq_xor8_coveredV1_append hacc rfl rfl rfl rfl,
          .inl (by simp; omega)⟩

theorem feedFollows_payloadV2 (hst : s.state = DecState.payloadV2) : FeedFollows s b := by
  obtain ⟨hbuffer, hjumbo, hacc, hroom⟩ :
    BufferInv s ∧ s.jumbo = false ∧ s.acc = crc8 0 (coveredV2 s) ∧ s.buf.length < s.lenExp.toNat := h.read hst
  have hcap : s.buf.length < s.cap.toNat := hbuffer.1 ▸ hroom
  have hrow := execFeed_payloadV2 b s hst
  rw [execPayloadV2, payloadByte_of_room hcap] at hrow
  by_cases hlast : s.buf.length + 1 = s.lenExp.toNat
  · rw [if_pos ((hbuffer.last_iff hroom).mpr hlast)] at hrow
    exact .of_state hst hrow (if_pos hlast).symm
      ⟨hbuffer.append hroom rfl rfl rfl rfl, hjumbo, eq_crc8_coveredV2_append hacc rfl rfl rfl, by simpa using hlast⟩
  · rw [if_neg (fun e => hlast ((hbuffer.last_iff hroom).mp e)), hst] at hrow
    exact .of_state hst hrow (if_neg hlast).symm
      ⟨hbuffer.append hroom rfl rfl rfl rfl, hjumbo, eq_crc8_coveredV2_append hacc rfl rfl rfl, by simp; omega⟩

/-- Whatever the byte, FEED completes, follows the map and keeps the invariant. -/
theorem feedFollows : FeedFollows s b := by
  have hlegal := h.inBounds.2
  rcases decState_cases s.state with e | e | e | e | e | e | e | e | e | e | e | e | e | e | e | e | e | e | hreserved
  · exact feedFollows_idle b h e
  · exact feedFollows_protoIdentifier b h e
  · exact feedFollows_directionV1 b h e
  · exact feedFollows_directionV2 b h e
  · exact feedFollows_flagV2 b h e
  · exact feedFollows_payloadLengthV1 b h e
  · exact feedFollows_payloadLengthJumboLow b h e
  · exact feedFollows_payloadLengthJumboHigh b h e
  · exact feedFollows_payloadLengthV2Low b h e
  · exact feedFollows_payloadLengthV2High b h e
  · exact feedFollows_codeV1 b h e
  · exact feedFollows_codeJumboV1 b h e
  · exact feedFollows_codeV2Low b h e
  · exact feedFollows_codeV2High b h e
  · exact feedFollows_payloadV1 b h e
  · exact feedFollows_payloadV2 b h e
  · exact feedFollows_checksumV1 b e
  · exact feedFollows_checksumV2 b e
  · have hge := reserved_ge hreserved
    omega

end

/-- Every event keeps the decoder's invariant: a reset makes the decoder idle, and the others leave it alone. -/
theorem DecoderInv.event {s t : State} {i : Instr} (hs : DecoderInv s) (h : EventEffect s i t) : DecoderInv t := by
  cases h
  case feed b h =>
    obtain ⟨u, hu, -, hinv⟩ := feedFollows b hs
    cases h.symm.trans hu
    exact hinv
  case reset | linkReset => exact ⟨⟨rfl, rfl, rfl, rfl, rfl, rfl, rfl⟩, rfl, rfl⟩
  all_goals exact hs

theorem inv_powerOn {p : Params} (h : p.Valid) : Inv (State.powerOn p) where
  decoder := ⟨⟨rfl, rfl, rfl, rfl, rfl, rfl, rfl⟩, rfl, rfl⟩
  stats := ⟨h, h.1, h.2.1, Nat.two_pow_pos _⟩
  pend := ⟨fun _ he => (nomatch he), List.Pairwise.nil⟩
  wr := ⟨powerOn_wrSorted p, fun _ hr => nomatch hr⟩

end Sys2Proof.Machine

open Sys2Proof Sys2Proof.Machine

/-- Settles O48: FEED keeps the invariant in each decoder state. -/
theorem decoderInvKept : Obligations.DecoderInvKept :=
  fun _ _ => step_leads (fun _ h => h) (fun _ _ h => h) (fun _ _ _ h => h) (fun _ _ _ => DecoderInv.event)

/-- Settles O13: the next state of FEED is the map's in each decoder state the invariant leaves. -/
theorem decoderTransitionMap : Obligations.DecoderTransitionMap := by
  intro s t b hinv h
  obtain ⟨u, hu, hnext, -⟩ := feedFollows b hinv
  cases h.symm.trans hu
  exact hnext

/-- Settles O12: under the invariant FEED completes, and the undefined bytes are taken by the "any other byte" rows, the
flag by a row that does not look at it. -/
theorem noWireByteRaises : Obligations.NoWireByteRaises := by
  refine fun s b => ⟨fun hinv => ?_, fun hst hb => ?_, fun hst hM hX => ?_, fun hst hFrom hTo hUnsup => ?_,
    fun hst hFrom hTo hUnsup => ?_, fun hst => ?_⟩
  · obtain ⟨t, ht, -, -⟩ := feedFollows b hinv
    exact ⟨t, ht⟩
  · exact exec_feed_of_state hst (decodeSel_idleDiscard ((wellFormed_idleDiscard b).mpr hb))
  · exact exec_feed_of_state hst (decodeSel_protoBad ((wellFormed_protoBad b).mpr ⟨hM, hX⟩))
  · exact exec_feed_of_state hst (decodeSel_dirV1Other ((wellFormed_dirV1Other b).mpr ⟨hFrom, hTo, hUnsup⟩))
  · exact exec_feed_of_state hst (decodeSel_dirV2Other ((wellFormed_dirV2Other b).mpr ⟨hFrom, hTo, hUnsup⟩))
  · rw [exec_feed_of_state hst (decodeSel_flagV2 b), exec_flagV2]

/-- Settles O47: the defaults are a valid choice of the parameters. -/
theorem invAtPowerOn : Obligations.InvAtPowerOn :=
  ⟨inv_powerOn (p := Config.defaults) (by decide), fun _ h => inv_powerOn h⟩

/-- Settles O52: no buffer, or an allocated one, in each decoder state. -/
theorem bufferBounds : Obligations.BufferBounds := by
  intro s h
  obtain ⟨⟨hrcv, hcap, hlen⟩, hstate⟩ := h.inBounds
  exact ⟨hrcv, hcap, hlen, hstate⟩

/-- Settles O17: the two rows share their effect, and FEED selects them for every byte no earlier row takes. -/
theorem otherDirectionRows : Obligations.OtherDirectionRows := by
  refine fun s b => ⟨rfl, rfl, fun hFrom hTo hUnsup => ⟨fun hst => ?_, fun hst => ?_⟩⟩
  · exact exec_feed_of_state hst (decodeSel_dirV1Other ((wellFormed_dirV1Other b).mpr ⟨hFrom, hTo, hUnsup⟩))
  · exact exec_feed_of_state hst (decodeSel_dirV2Other ((wellFormed_dirV2Other b).mpr ⟨hFrom, hTo, hUnsup⟩))

/-- Settles O19: both rows write what their rules write out, and each state has the one row FEED performs. -/
theorem codeV1Rows : Obligations.CodeV1Rows :=
  fun _ b => ⟨rfl, rfl, fun hst => exec_feed_of_state hst (decodeSel_codeV1 b),
    fun hst => exec_feed_of_state hst (decodeSel_codeJumboV1 b)⟩

/-- Settles O20: the three policies for length 0 leave one case of their own, DIRECT_CHECKSUM. -/
theorem jumboLengthRows : Obligations.JumboLengthRows := by
  refine fun s b => ⟨rfl, ?_, fun hst => exec_feed_of_state hst (decodeSel_payloadLengthJumboLow b),
    fun hst => exec_feed_of_state hst (decodeSel_payloadLengthJumboHigh b)⟩
  have hrow : exec (.jlenHi b) s = execJlenHi b s := rfl
  rw [hrow, execJlenHi, afterJumboLength_eq]
  rfl

/-- Settles O22: a byte with room is appended, a full buffer raises, and length 0 is left to the policy. -/
theorem payloadV1Row : Obligations.PayloadV1Row := by
  refine fun s b => ⟨fun hlen hroom => ?_, fun hlen hfull => ?_, fun hlen hone => execPayloadV1_absorbOne hlen hone b,
    fun hlen hforever => execPayloadV1_absorbForever hlen hforever b,
    fun hlen hdirect => execPayloadV1_directChecksum hlen hdirect b,
    fun hst => exec_feed_of_state hst (decodeSel_payloadV1 b)⟩
  · exact (execPayloadV1_of_length hlen b).trans (payloadByte_of_room hroom b _ _)
  · exact (execPayloadV1_of_length hlen b).trans (payloadByte_of_full hfull b _ _)

/-- Settles O23: a byte with room is appended, and a full buffer raises. -/
theorem payloadV2Row : Obligations.PayloadV2Row :=
  fun _ b hst => ⟨fun hroom => payloadByte_of_room hroom b _ _, fun hfull => payloadByte_of_full hfull b _ _,
    exec_feed_of_state hst (decodeSel_payloadV2 b)⟩

end

section
/-! SUPPORT. The CRC is linear over XOR and the XOR-8 is a sum, and what follows for a changed byte (spec 40_checksum.md
sections 1 and 2). -/

namespace Sys2Proof.Machine

/-! ### Linearity of the CRC -/

theorem and_highBit_ne_zero : ∀ c : Byte, c &&& 0x80 ≠ 0 ↔ c.msb = true := by decide

theorem crcShift_eq (c : Byte) : crcShift c = (c <<< 1) ^^^ (if c.msb = true then 0xD5 else 0) := by
  rw [crcShift]
  simp only [and_highBit_ne_zero]
  split
  · rfl
  · exact BitVec.xor_zero.symm

theorem crcShift_xor (a b : Byte) : crcShift (a ^^^ b) = crcShift a ^^^ crcShift b := by
  rw [crcShift_eq, crcShift_eq a, crcShift_eq b, BitVec.shiftLeft_xor_distrib, BitVec.msb_xor]
  have hhigh : (if (a.msb ^^ b.msb) = true then (0xD5 : Byte) else 0) =
      (if a.msb = true then (0xD5 : Byte) else 0) ^^^ (if b.msb = true then (0xD5 : Byte) else 0) := by
    cases a.msb <;> cases b.msb <;> rfl
  rw [hhigh]
  ac_rfl

theorem crcShifts_xor (n : Nat) (a b : Byte) : crcShifts n (a ^^^ b) = crcShifts n a ^^^ crcShifts n b := by
  induction n generalizing a b with
  | zero => rfl
  | succ n ih => rw [crcShifts, crcShift_xor, ih]; rfl

theorem crcStep_xor_xor (a b x y : Byte) : crcStep (a ^^^ b) (x ^^^ y) = crcStep a x ^^^ crcStep b y := by
  rw [crcStep, crcStep, crcStep, ← crcShifts_xor]
  congr 1
  ac_rfl

/-- Linearity with the seeds XORed too. -/
theorem crc8_zipWith_xor (a b : Byte) {x y : List Byte} (h : x.length = y.length) :
    crc8 (a ^^^ b) (List.zipWith (fun u v => u ^^^ v) x y) = crc8 a x ^^^ crc8 b y := by
  induction x generalizing a b y with
  | nil =>
    obtain rfl := List.length_eq_zero_iff.mp h.symm
    rfl
  | cons u x ih =>
    obtain ⟨v, y, rfl⟩ := List.exists_cons_of_length_eq_add_one h.symm
    rw [List.zipWith_cons_cons, crc8_cons, crc8_cons, crc8_cons, crcStep_xor_xor, ih _ _ (Nat.succ.inj h)]

theorem crcStep_self (c : Byte) : crcStep c c = 0 := by
  rw [crcStep_xor, BitVec.xor_self]
  exact crcStep_zero_zero

theorem crc8_replicate_zero (k : Nat) : crc8 0 (List.replicate k 0) = 0 := by
  induction k with
  | zero => rfl
  | succ k ih => rw [List.replicate_succ, crc8_cons, crcStep_zero_zero, ih]

/-! ### The table -/

/-- The table of R104 lists the step's values from 0. -/
theorem crcTab_eq : crcTab = (List.range 256).map (fun n => crcStep 0 (BitVec.ofNat 8 n)) := by decide +kernel

theorem crcTab_getElem? (x : Byte) : crcTab[x.toNat]? = some (crcStep 0 x) := by
  rw [crcTab_eq, List.getElem?_map, List.getElem?_range x.isLt, Option.map_some, BitVec.ofNat_toNat, BitVec.setWidth_eq]

/-! ### Both checksums tell a changed byte -/

theorem crcShift_eq_zero : ∀ c : Byte, crcShift c = 0 → c = 0 := by decide

theorem crcShifts_eq_zero {n : Nat} {c : Byte} (h : crcShifts n c = 0) : c = 0 := by
  induction n generalizing c with
  | zero => exact h
  | succ n ih => exact crcShift_eq_zero c (ih h)

/-- The step loses nothing of what it XORs. -/
theorem crcStep_inj {a b x y : Byte} (h : crcStep a x = crcStep b y) : a ^^^ x = b ^^^ y := by
  have hzero : crcShifts 8 ((a ^^^ x) ^^^ (b ^^^ y)) = 0 := by
    rw [crcShifts_xor]
    exact BitVec.xor_eq_zero_iff.mpr h
  exact BitVec.xor_eq_zero_iff.mp (crcShifts_eq_zero hzero)

/-- Different seeds stay different through any sequence. -/
theorem crc8_seed_inj {a b : Byte} {bs : List Byte} (h : crc8 a bs = crc8 b bs) : a = b := by
  induction bs generalizing a b with
  | nil => exact h
  | cons x bs ih => exact (BitVec.xor_left_inj x).mp (crcStep_inj (ih h))

theorem crc8_changed_byte (seed : Byte) (pre post : List Byte) {a b : Byte} (h : a ≠ b) :
    crc8 seed (pre ++ a :: post) ≠ crc8 seed (pre ++ b :: post) := by
  intro heq
  rw [crc8_append, crc8_append, crc8_cons, crc8_cons] at heq
  exact h ((BitVec.xor_right_inj _).mp (crcStep_inj (crc8_seed_inj heq)))

theorem xor8_changed_byte (pre post : List Byte) {a b : Byte} (h : a ≠ b) :
    xor8 (pre ++ a :: post) ≠ xor8 (pre ++ b :: post) := by
  intro heq
  rw [xor8_append, xor8_append, xor8_cons, xor8_cons] at heq
  exact h ((BitVec.xor_left_inj _).mp ((BitVec.xor_right_inj _).mp heq))

/-- XOR-8 is a sum: the order of its terms does not matter. -/
theorem xor8_perm {x y : List Byte} (h : x.Perm y) : xor8 x = xor8 y := by
  induction h with
  | nil => rfl
  | cons b _ ih => rw [xor8_cons, xor8_cons, ih]
  | swap a b l =>
    simp only [xor8_cons]
    ac_rfl
  | trans _ _ ih₁ ih₂ => exact ih₁.trans ih₂

end Sys2Proof.Machine

open Sys2Proof Sys2Proof.Machine

/-- Settles O28: the step sees the XOR of its operands only, and the table lists its values. -/
theorem crcStepIsTableLookup : Obligations.CrcStepIsTableLookup := by
  refine ⟨fun _ _ _ => rfl, fun crc b => ?_⟩
  rw [crcStep_xor]
  exact crcTab_getElem? (crc ^^^ b)

/-- Settles O29: linearity from the seeds 0 and 0. -/
theorem crcIsLinear : Obligations.CrcIsLinear :=
  fun _ _ h => crc8_zipWith_xor 0 0 h

/-- Settles O30: a zero byte keeps the accumulator 0, and a byte equal to the accumulator makes it 0. -/
theorem crcResidueAndLeadingZeros : Obligations.CrcResidueAndLeadingZeros := by
  refine ⟨fun k x => ?_, fun x => ?_⟩
  · rw [crc8_append, crc8_replicate_zero]
  · rw [crc8_concat, crcStep_self]

/-- Settles O31: the CRC step and XOR are injective in the byte, and the CRC in its accumulator. -/
theorem oneChangedByteChangesChecksums : Obligations.OneChangedByteChangesChecksums :=
  fun pre post _ _ seed h => ⟨crc8_changed_byte seed pre post h, xor8_changed_byte pre post h⟩

/-- Settles O32: by the swaps a permutation is made of. -/
theorem xorIgnoresOrder : Obligations.XorIgnoresOrder :=
  fun _ _ => xor8_perm

end

section
/-! SUPPORT. FEED leaves the link, the timeout window and the writes alone, and the whole effect of a dispatch with
either match policy (spec 42_decoder.md R139, R170, 43_dispatcher.md R210 to R212). -/

namespace Sys2Proof.Machine

/-! ### What FEED does not see -/

/-- The state with the part that FEED neither reads nor writes replaced (92_eei_decisions.md D38). -/
def State.withEnv (s : State) (c o : Bool) (T wn : Nat) (wr : List WriteRec) (fl : List LogEntry)
    (inp : List EventWord) : State :=
  { s with connected := c, offline := o, T := T, wr := wr, widNext := wn, faults := fl, input := inp }

section
variable (s : State) (c o : Bool) (T wn : Nat) (wr : List WriteRec) (fl : List LogEntry) (inp : List EventWord)

theorem payloadByte_withEnv (b acc : Byte) (done : DecState) :
    (s.withEnv c o T wn wr fl inp).payloadByte b acc done =
      mapNext (fun t => t.withEnv c o T wn wr fl inp) (s.payloadByte b acc done) := by
  by_cases hroom : s.buf.length < s.cap.toNat
  · rw [payloadByte_of_room hroom, payloadByte_of_room (s := s.withEnv c o T wn wr fl inp) hroom]
    rfl
  · have hfull := Nat.not_lt.mp hroom
    rw [payloadByte_of_full hfull, payloadByte_of_full (s := s.withEnv c o T wn wr fl inp) hfull]
    rfl

theorem jumboZeroByte_withEnv (b : Byte) :
    (s.withEnv c o T wn wr fl inp).jumboZeroByte b =
      mapNext (fun t => t.withEnv c o T wn wr fl inp) (s.jumboZeroByte b) := by
  have hcfg : (s.withEnv c o T wn wr fl inp).cfg.jumboZero = s.cfg.jumboZero := rfl
  rw [State.jumboZeroByte, State.jumboZeroByte, hcfg]
  cases s.cfg.jumboZero <;> rfl

theorem performRow_withEnv (i : Instr) :
    performRow i (s.withEnv c o T wn wr fl inp) =
      mapNext (fun t => t.withEnv c o T wn wr fl inp) (performRow i s) := by
  cases i
  case payloadV1 b =>
    by_cases hlen : s.lenExp = 0
    · exact (if_pos hlen).trans ((jumboZeroByte_withEnv s c o T wn wr fl inp b).trans
        (congrArg _ (if_pos (c := s.lenExp = 0) hlen).symm))
    · exact (if_neg hlen).trans ((payloadByte_withEnv s c o T wn wr fl inp b _ _).trans
        (congrArg _ (if_neg (c := s.lenExp = 0) hlen).symm))
  case payloadV2 b => exact payloadByte_withEnv s c o T wn wr fl inp b _ _
  all_goals rfl

theorem execFeed_withEnv (b : Byte) :
    execFeed b (s.withEnv c o T wn wr fl inp) = mapNext (fun t => t.withEnv c o T wn wr fl inp) (execFeed b s) := by
  obtain ⟨i, hi⟩ := exists_takesSelector s.state b
  rw [execFeed_eq_performRow hi.selected, execFeed_eq_performRow (s := s.withEnv c o T wn wr fl inp) hi.selected,
    performRow_withEnv]

end

/-! ### Dispatch -/

@[simp] theorem frameOf_validFlag (s : State) (ver : Version) (b : Byte) :
    s.frameOf ver (validFlag b s.acc) = ⟨ver, s.code, if b = s.acc then s.buf else [], decide (b = s.acc)⟩ := by
  by_cases hb : b = s.acc <;> simp [State.frameOf, validFlag, hb]

/-- The whole next state of a dispatch (42_decoder.md R170). -/
theorem dispatch_eq (s : State) (ver : Version) (valid : Bool) :
    s.dispatch ver valid = { s with
      crcerr := crcerrAfter s.cfg.crcerrW s.crcerr valid
      lastRx := s.now
      state := DecState.idle, dir := 0, unsup := false, lenExp := 0, lenRcv := 0, buf := [], cap := 0, acc := 0
      jumbo := false, code := 0
      pend := (matchPend s.cfg.matchPolicy (s.frameOf ver valid) s.pend).2
      out := s.out ++ .frameOut (s.frameOf ver valid) ::
        (matchPend s.cfg.matchPolicy (s.frameOf ver valid) s.pend).1 } := by
  simp [State.dispatch, State.emit, State.clearWorking, State.matchFrame, State.frameOf]

/-- The version a checksum state dispatches. -/
def checksumVersion (st : DecState) : Version := if st = DecState.checksumV1 then .v1 else .v2

/-- At the checksum byte FEED dispatches the frame. -/
theorem exec_feed_checksum {s : State} (h : s.state = DecState.checksumV1 ∨ s.state = DecState.checksumV2) (b : Byte) :
    exec (.feed b) s = .next (s.dispatch (checksumVersion s.state) (validFlag b s.acc)) := by
  rcases h with hst | hst
  · rw [exec_feed_of_state hst (decodeSel_checksumV1 b), hst]
    rfl
  · rw [exec_feed_of_state hst (decodeSel_checksumV2 b), hst]
    rfl

/-- The COMPLETEs of the entries removed, as one list. -/
theorem flatMap_completionOf (fr : Frame) (l : List Pending) :
    l.flatMap (completionOf fr) =
      (l.filter (fun e => fr.valid || e.ioe)).map (fun e => .complete e.tag (.frame fr.code fr.payload fr.valid)) := by
  induction l with
  | nil => rfl
  | cons e l ih =>
    rw [List.flatMap_cons, ih, completionOf, List.filter_cons]
    split <;> rfl

end Sys2Proof.Machine

open Sys2Proof Sys2Proof.Machine

/-- Settles O14: no decoder row reads or writes that part of the state. -/
theorem feedIgnoresLinkTimeoutWrites : Obligations.FeedIgnoresLinkTimeoutWrites :=
  fun s b c o T wn wr fl inp => execFeed_withEnv s c o T wn wr fl inp b

/-- Settles O24: both rows dispatch, and FEED performs each in its own state. -/
theorem checksumRowsDispatch : Obligations.ChecksumRowsDispatch := by
  intro s b
  have hdispatch (ver : Version) := dispatch_eq s ver (validFlag b s.acc)
  simp only [frameOf_validFlag, crcerrAfter_validFlag] at hdispatch
  exact ⟨congrArg Host.Outcome.next (hdispatch .v1), congrArg Host.Outcome.next (hdispatch .v2),
    fun hst => exec_feed_of_state hst (decodeSel_checksumV1 b),
    fun hst => exec_feed_of_state hst (decodeSel_checksumV2 b)⟩

/-- Settles O25: the table splits at the oldest entry of the code, or has none. -/
theorem matchFirstOfCode : Obligations.MatchFirstOfCode := by
  intro s b hfirst hst
  have hexec := exec_feed_checksum hst b
  refine ⟨fun pre post e hpend hcode hpre => ?_, fun hno => ?_⟩
  · have hmatch (fr : Frame) (hfr : fr.code = s.code) :
        matchPend s.cfg.matchPolicy fr s.pend = (completionOf fr e, pre ++ post) := by
      rw [hfirst, hpend]
      exact matchFirst_append (hcode.trans hfr.symm) (hfr ▸ hpre)
    refine ⟨_, s.frameOf (checksumVersion s.state) (validFlag b s.acc), hexec, ?_, rfl, ?_, ?_, ?_⟩
    · rw [State.dispatch_pend, hmatch _ rfl]
    · simp
    · exact fun hinvalid => if_neg (Bool.eq_false_iff.mp hinvalid)
    · rw [State.dispatch_out, hmatch _ rfl, completionOf]
      simp
  · have hmatch (fr : Frame) (hfr : fr.code = s.code) : matchPend s.cfg.matchPolicy fr s.pend = ([], s.pend) := by
      rw [hfirst]
      exact matchFirst_of_no_code (hfr ▸ hno)
    refine ⟨_, s.frameOf (checksumVersion s.state) (validFlag b s.acc), hexec, ?_, ?_⟩
    · rw [State.dispatch_pend, hmatch _ rfl]
    · rw [State.dispatch_out, hmatch _ rfl, List.append_nil]

/-- Settles O26: ALL filters the table by the code, and completes what the filter removes. -/
theorem matchAllOfCode : Obligations.MatchAllOfCode := by
  intro s b hall hst
  refine ⟨_, s.frameOf (checksumVersion s.state) (validFlag b s.acc), exec_feed_checksum hst b, rfl, by simp, ?_, ?_⟩
  · rw [State.dispatch_pend, hall]
    rfl
  · rw [State.dispatch_out, hall, matchPend, matchAll, flatMap_completionOf]
    rfl

end

section
/-! SUPPORT. The events of the encoder, the dispatcher and the link, each with its whole outcome, and the four error
causes (spec 41_encoder.md, 43_dispatcher.md, 60_exceptions.md R251, 70_reset_and_hazards.md). -/

namespace Sys2Proof.Machine

/-! ### The encoder -/

/-- A payload the selected encoder takes. -/
theorem frameOf_of_fits {code : Half} {payload : List Byte}
    (h : payload.length ≤ 254 ∨ (254 < code.toNat ∧ payload.length ≤ 65535)) : ∃ bs, frameOf code payload = .ok bs := by
  rcases le_or_gt code.toNat 254 with hc | hc
  · exact ⟨_, (frameOf_of_le hc payload).trans (frameV1_of_fits hc (by omega))⟩
  · exact ⟨_, (frameOf_of_gt hc payload).trans (frameV2_of_fits code (by omega))⟩

/-- A payload the selected encoder does not take. -/
theorem frameOf_of_overflow {code : Half} {payload : List Byte}
    (h : (code.toNat ≤ 254 ∧ 254 < payload.length) ∨ 65535 < payload.length) :
    frameOf code payload = .error (.encodeOverflow code payload.length) := by
  rcases le_or_gt code.toNat 254 with hc | hc
  · exact (frameOf_of_le hc payload).trans (frameV1_of_overflow (.inr (by omega)))
  · exact (frameOf_of_gt hc payload).trans (frameV2_of_overflow code (by omega))

theorem toNat_zext16 (b : Byte) : (zext16 b).toNat = b.toNat := by
  simp only [zext16, BitVec.toNat_setWidth]
  omega

/-- The length byte of a V1 frame. -/
theorem loByte_lenHalf (bs : List Byte) : loByte (lenHalf bs) = BitVec.ofNat 8 bs.length := by
  apply BitVec.eq_of_toNat_eq
  simp only [loByte, lenHalf, BitVec.toNat_setWidth, BitVec.toNat_ofNat]
  omega

theorem exec_encodeV1 (code : Byte) (payload : List Byte) (s : State) :
    exec (.encodeV1 code payload) s = emitFrame s (frameV1 (zext16 code) payload) := rfl

theorem exec_encodeV2 (code : Half) (payload : List Byte) (s : State) :
    exec (.encodeV2 code payload) s = emitFrame s (frameV2 code payload) := rfl

theorem exec_encode (code : Half) (payload : List Byte) (s : State) :
    exec (.encode code payload) s = emitFrame s (frameOf code payload) := rfl

/-! ### SEND -/

section
variable {s : State} {code : Half} {payload : List Byte} {tag : Nat} {ioe : Bool}

theorem execSend_of_down (h : s.connected = false ∨ s.offline = true) :
    execSend code payload tag ioe s = .next ((s.emit (.complete tag .noData)).emit (.ret tag false)) := if_pos h

theorem execSend_of_duplicate (hconn : s.connected = true) (hoff : s.offline = false) (h : ∃ e ∈ s.pend, e.tag = tag) :
    execSend code payload tag ioe s = .refused (.duplicateTag tag) := by
  have hfind : (pendFind tag s.pend).isSome = true := by
    rw [Option.isSome_iff_ne_none]
    intro hnone
    obtain ⟨e, he, htag⟩ := h
    exact pendFind_eq_none.mp hnone e he htag
  rw [execSend, if_neg (by simp [hconn, hoff]), if_pos hfind]

/-- A usable link and a fresh tag leave SEND to the encoder (R202): the request is queued. -/
theorem execSend_of_encoded (hconn : s.connected = true) (hoff : s.offline = false) (hfresh : ∀ e ∈ s.pend, e.tag ≠ tag)
    {obuf : List Byte} (hob : frameOf code payload = .ok obuf) :
    execSend code payload tag ioe s = .next ((s.queueRequest code payload obuf tag ioe).emit (.ret tag true)) := by
  unfold execSend
  rw [if_neg (by simp [hconn, hoff]), if_neg (by simp [pendFind_eq_none.mpr hfresh])]
  simp only [hob]

/-- And a payload the encoder does not take is refused. -/
theorem execSend_of_overflow (hconn : s.connected = true) (hoff : s.offline = false)
    (hfresh : ∀ e ∈ s.pend, e.tag ≠ tag) {r : Refusal} (hr : frameOf code payload = .error r) :
    execSend code payload tag ioe s = .refused r := by
  unfold execSend
  rw [if_neg (by simp [hconn, hoff]), if_neg (by simp [pendFind_eq_none.mpr hfresh])]
  simp only [hr]

end

theorem queueRequest_transmits {s : State} {code : Half} {payload : List Byte}
    (h : payload ≠ [] ∨ pendHasCode code s.pend = false) (obuf : List Byte) (tag : Nat) (ioe : Bool) :
    s.queueRequest code payload obuf tag ioe =
      (s.enqueue (newPending s code obuf tag ioe)).transmit .primary (newPending s code obuf tag ioe) := if_pos h

theorem queueRequest_coalesces {s : State} {code : Half} (h : pendHasCode code s.pend = true) (obuf : List Byte)
    (tag : Nat) (ioe : Bool) :
    s.queueRequest code [] obuf tag ioe = s.enqueue (newPending s code obuf tag ioe) := if_neg (by simp [h])

theorem newPending_first {s : State} {code : Half} (h : pendHasCode code s.pend = false) (obuf : List Byte) (tag : Nat)
    (ioe : Bool) : newPending s code obuf tag ioe = ⟨code, obuf, tag, ioe, s.now, .armed (s.now + s.T)⟩ := by
  rw [newPending, h]
  rfl

theorem newPending_later {s : State} {code : Half} (h : pendHasCode code s.pend = true) (obuf : List Byte) (tag : Nat)
    (ioe : Bool) : newPending s code obuf tag ioe = ⟨code, obuf, tag, ioe, s.now, .none⟩ := by
  rw [newPending, h]
  rfl

theorem emit_emit (s : State) (a b : Output) : (s.emit a).emit b = { s with out := s.out ++ [a, b] } := by
  simp [State.emit]

/-- A queued request that is transmitted, written out. -/
theorem enqueue_transmit_emit (s : State) (e : Pending) (k : WriteKind) (o : Output) :
    ((s.enqueue e).transmit k e).emit o = { s with
      pend := s.pend ++ [e]
      widNext := s.widNext + 1
      wr := wrInsert ⟨s.widNext, k, e.tag, e.obuf.length, e.tSend⟩ s.wr
      out := s.out ++ [.write s.widNext e.obuf, o] } := by
  simp [State.emit, State.transmit, State.enqueue]

/-- The key `wid_next` is above every key of the table. -/
theorem WrInv.wrInsert_next {s : State} (h : WrInv s) {r : WriteRec} (hr : r.wid = s.widNext) :
    wrInsert r s.wr = s.wr ++ [r] := by
  obtain ⟨-, hrec⟩ := h
  exact wrInsert_eq_append fun x hx => hr ▸ (hrec x hx).1

/-! ### TIMER_FIRE and WRITE_DONE -/

section
variable {s : State} {tag : Nat} {e : Pending}

theorem execTimerFire_of_none (h : ∀ e ∈ s.pend, e.tag ≠ tag) : execTimerFire tag s = .refused (.noSuchTimer tag) := by
  rw [execTimerFire, pendFind_eq_none.mpr h]

theorem execTimerFire_of_unarmed (h : pendFind tag s.pend = some e) (ht : e.timer = .none ∨ e.timer = .fired) :
    execTimerFire tag s = .refused (.noSuchTimer tag) := by
  rcases ht with ht | ht <;> simp only [execTimerFire, h, ht]

theorem execTimerFire_of_armed {d : Nat} (h : pendFind tag s.pend = some e) (ht : e.timer = .armed d) :
    execTimerFire tag s =
      if s.now < d then .refused (.timerNotDue tag)
      else .next ({ s with pend := pendFire tag s.pend }.transmit .retry e) := by
  simp only [execTimerFire, h, ht]

end

/-- A record is the one a key gives when found, or when in the table with that key. -/
theorem wrFind_of_found_or_mem {s : State} {wid : Nat} {r : WriteRec}
    (h : wrFind wid s.wr = some r ∨ (WrInv s ∧ r ∈ s.wr ∧ r.wid = wid)) : wrFind wid s.wr = some r :=
  h.elim id fun ⟨⟨hsorted, _⟩, hmem⟩ => (wrFind_eq_some_iff hsorted).mpr hmem

section
variable {s : State} {wid n : Nat} {r : WriteRec}

theorem execWriteDone_of_unknown (h : ∀ r ∈ s.wr, r.wid ≠ wid) :
    execWriteDone wid n s = .refused (.unknownWrite wid) := by
  simp only [execWriteDone, wrFind_eq_none.mpr h]

theorem execWriteDone_of_excess (h : wrFind wid s.wr = some r) (hn : r.n < n) :
    execWriteDone wid n s = .refused (.badOperand (.num n)) := by
  simp only [execWriteDone, h, if_pos hn]

theorem execWriteDone_of_primary (h : wrFind wid s.wr = some r) (hk : r.kind = .primary) (hn : n ≤ r.n) :
    execWriteDone wid n s = .next ({ s with wr := wrErase wid s.wr }.primaryDone r n) := by
  simp only [execWriteDone, h, if_neg (Nat.not_lt.mpr hn), hk]

theorem execWriteDone_of_retry (h : wrFind wid s.wr = some r) (hk : r.kind = .retry) (hn : n ≤ r.n) :
    execWriteDone wid n s = .next ({ s with wr := wrErase wid s.wr }.retryDone r) := by
  simp only [execWriteDone, h, if_neg (Nat.not_lt.mpr hn), hk]

end

/-! ### The error causes -/

/-- The situation in which an event raises a cause. -/
inductive CauseRaised (s : State) : Instr → Cause → Prop
  /-- E1 -/
  | framingDesync {b : Byte}
      (h : (s.state = DecState.idle ∧ b ≠ 0x24) ∨ (s.state = DecState.protoIdentifier ∧ b ≠ 0x4D ∧ b ≠ 0x58)) :
      CauseRaised s (.feed b) .framingDesync
  /-- E2 -/
  | checksumFailure {b : Byte} (hst : s.state = DecState.checksumV1 ∨ s.state = DecState.checksumV2) (hb : b ≠ s.acc) :
      CauseRaised s (.feed b) .checksumFailure
  /-- E3 -/
  | timeout {tag : Nat} {e : Pending} {d : Nat} (hfind : pendFind tag s.pend = some e) (harmed : e.timer = .armed d)
      (hdue : d ≤ s.now) : CauseRaised s (.timerFire tag) .timeout
  /-- E4 -/
  | linkDown {code : Half} {payload : List Byte} {tag : Nat} {ioe : Bool}
      (hlink : s.connected = false ∨ s.offline = true) : CauseRaised s (.send code payload tag ioe) .linkDown

theorem causeRaised_of_causeOf {i : Instr} {s : State} {c : Cause} (h : causeOf i s = some c) : CauseRaised s i c := by
  cases i
  case feed b =>
    simp only [causeOf] at h
    split_ifs at h with hidle hproto hsum <;> cases h
    · exact .framingDesync (.inl hidle)
    · exact .framingDesync (.inr hproto)
    · exact .checksumFailure hsum.1 hsum.2
  case timerFire tag =>
    simp only [causeOf] at h
    split at h
    · cases h
    next e hfind =>
      split at h
      · next d harmed =>
        split_ifs at h with hdue
        cases h
        exact .timeout hfind harmed hdue
      · cases h
      · cases h
  case send code payload tag ioe =>
    simp only [causeOf] at h
    split_ifs at h with hlink
    cases h
    exact .linkDown hlink
  all_goals cases h

/-- A desync leaves the decoder idle and reports nothing. -/
theorem exec_framingDesync {s : State} {b : Byte}
    (h : (s.state = DecState.idle ∧ b ≠ 0x24) ∨ (s.state = DecState.protoIdentifier ∧ b ≠ 0x4D ∧ b ≠ 0x58)) :
    exec (.feed b) s = .next { s with state := DecState.idle } := by
  rcases h with ⟨hst, hb⟩ | ⟨hst, hb⟩
  · rw [exec_feed_of_state hst (decodeSel_idleDiscard ((wellFormed_idleDiscard b).mpr hb)), ← hst]
    rfl
  · exact exec_feed_of_state hst (decodeSel_protoBad ((wellFormed_protoBad b).mpr hb))

/-- A wrong checksum byte dispatches an invalid frame. -/
theorem exec_checksumFailure {s : State} {b : Byte}
    (hst : s.state = DecState.checksumV1 ∨ s.state = DecState.checksumV2) (hb : b ≠ s.acc) :
    exec (.feed b) s = .next (s.dispatch (checksumVersion s.state) false) := by
  have hinvalid : validFlag b s.acc = false := by simpa [validFlag] using hb
  rw [exec_feed_checksum hst, hinvalid]

/-- A due timer fires, and its entry's own buffer is written again. -/
theorem exec_timeout {s : State} {tag : Nat} {e : Pending} {d : Nat} (hfind : pendFind tag s.pend = some e)
    (harmed : e.timer = .armed d) (hdue : d ≤ s.now) :
    ∃ pre post, s.pend = pre ++ e :: post ∧ e.tag = tag ∧
      exec (.timerFire tag) s =
        .next ({ s with pend := pre ++ { e with timer := .fired } :: post }.transmit .retry e) := by
  obtain ⟨pre, post, hpend, htag, hpre⟩ := pendFind_split hfind
  refine ⟨pre, post, hpend, htag, (execTimerFire_of_armed hfind harmed).trans ((if_neg (Nat.not_lt.mpr hdue)).trans ?_)⟩
  rw [hpend, pendFire_append htag hpre]

/-- An event that raises a cause completes. -/
theorem CauseRaised.completes {s : State} {i : Instr} {c : Cause} (h : CauseRaised s i c) :
    ∃ t, exec i s = .next t := by
  cases h with
  | framingDesync h => exact ⟨_, exec_framingDesync h⟩
  | checksumFailure hst hb => exact ⟨_, exec_checksumFailure hst hb⟩
  | timeout hfind harmed hdue =>
    obtain ⟨_, _, -, -, hexec⟩ := exec_timeout hfind harmed hdue
    exact ⟨_, hexec⟩
  | linkDown hlink => exact ⟨_, execSend_of_down hlink⟩

end Sys2Proof.Machine

open Sys2Proof Sys2Proof.Machine

/-- Settles O33: the code of ENCODE_V1 is a byte, so its frame carries that byte. -/
theorem encodeV1Result : Obligations.EncodeV1Result := by
  intro code payload s
  have hfits {pl : List Byte} (hc : code.toNat ≤ 254) (hp : pl.length ≤ 254) :
      exec (.encodeV1 code pl) s = .next (s.emit (.val (.bytes (wireV1 toDevice code pl)))) := by
    rw [exec_encodeV1, frameV1_of_fits (by rwa [toNat_zext16]) hp, loByte_zext16]
    rfl
  refine ⟨fun hc hp => ?_, fun h => ?_, fun hc => ?_, fun v rest hv => ?_⟩
  · rw [hfits hc hp, wireV1, loByte_lenHalf]
    rfl
  · rw [exec_encodeV1, frameV1_of_overflow (by rwa [toNat_zext16])]
    rfl
  · have hsum : xor8 [0, code] = code := by rw [xor8_cons, xor8_singleton, zero_xor_byte]
    rw [hfits hc (Nat.zero_le _), wireV1, loByte_lenHalf]
    simpa [State.emit, toDevice] using hsum
  · simp [decode, decodeEvent, takeBits_misfit _ (n := 8) (show 2 ^ 8 ≤ v from hv)]

/-- Settles O34: the encoder's domain is the payloads that a 16-bit length counts. -/
theorem encodeV2Result : Obligations.EncodeV2Result := by
  refine fun code payload s => ⟨fun hp => ?_, fun hp => ?_, fun v rest hv => ?_⟩
  · rw [exec_encodeV2, frameV2_of_fits code hp]
    rfl
  · rw [exec_encodeV2, frameV2_of_overflow code hp]
    rfl
  · simp [decode, decodeEvent, takeBits_misfit _ (n := 16) (show 2 ^ 16 ≤ v from hv)]

/-- Settles O35: the code alone selects the encoder. -/
theorem encodeSelectsVersion : Obligations.EncodeSelectsVersion := by
  refine fun code payload s => ⟨fun c hcode hc => ?_, fun hc => ?_, fun hfits => ?_, fun hover => ?_⟩
  · subst hcode
    rw [exec_encode, frameOf_of_le hc]
    rfl
  · rw [exec_encode, frameOf_of_gt hc, exec_encodeV2]
  · obtain ⟨bs, hbs⟩ := frameOf_of_fits hfits
    refine ⟨bs, hbs, ?_⟩
    rw [exec_encode, hbs]
    rfl
  · rw [exec_encode, frameOf_of_overflow hover]
    rfl

/-- Settles O37: the link is the first thing SEND looks at. -/
theorem sendFailsFast : Obligations.SendFailsFast :=
  fun _ _ _ _ s h => (execSend_of_down h).trans (congrArg Host.Outcome.next (emit_emit s _ _))

/-- Settles O38: whether the code is pending decides the timer, and with the payload whether the request is
transmitted. -/
theorem sendQueuesRequest : Obligations.SendQueuesRequest := by
  intro code payload ob tag ioe s new hconn hoff hfresh hob
  have hexec := execSend_of_encoded (ioe := ioe) hconn hoff hfresh hob
  refine ⟨fun hno => ?_, fun hsome hpay => ?_, fun hsome hpay => ?_, wrFind_wrInsert_self new s.wr,
    fun w hw => wrFind_wrInsert_of_ne hw s.wr, fun hinv => hinv.wrInsert_next rfl⟩
  · have hfirst := pendHasCode_eq_false.mpr hno
    rw [queueRequest_transmits (.inr hfirst), newPending_first hfirst, enqueue_transmit_emit] at hexec
    exact hexec
  · have hlater := pendHasCode_iff.mpr hsome
    rw [queueRequest_transmits (.inl hpay), newPending_later hlater, enqueue_transmit_emit] at hexec
    exact hexec
  · have hlater := pendHasCode_iff.mpr hsome
    subst hpay
    rw [queueRequest_coalesces hlater, newPending_later hlater] at hexec
    exact hexec

/-- Settles O39: the checks in the order the events make them. -/
theorem sendAndWriteDoneRefusals : Obligations.SendAndWriteDoneRefusals := by
  refine ⟨fun code payload tag ioe s hconn hoff => ⟨fun hdup => ?_, fun hfresh hover => ?_⟩,
    fun wid n s => ⟨fun hno => execWriteDone_of_unknown hno, fun r hr hn => ?_⟩⟩
  · exact execSend_of_duplicate hconn hoff hdup
  · exact execSend_of_overflow hconn hoff hfresh (frameOf_of_overflow hover)
  · exact execWriteDone_of_excess (wrFind_of_found_or_mem hr) hn

/-- Settles O40: the tag's entry is the one found, and firing marks that entry and no other. -/
theorem timerFireRetransmits : Obligations.TimerFireRetransmits := by
  refine fun tag s => ⟨execTimerFire_of_none, fun pre post e hpend htag hpre _ => ?_⟩
  intro new
  have hfind : pendFind tag s.pend = some e := hpend ▸ pendFind_append htag hpre
  refine ⟨execTimerFire_of_unarmed hfind, fun d hd hearly => ?_, fun d hd hdue => ?_, wrFind_wrInsert_self new s.wr,
    fun w hw => wrFind_wrInsert_of_ne hw s.wr, fun hinv => hinv.wrInsert_next rfl⟩
  · exact (execTimerFire_of_armed hfind hd).trans (if_pos hearly)
  · refine (execTimerFire_of_armed hfind hd).trans ((if_neg (Nat.not_lt.mpr hdue)).trans ?_)
    rw [hpend, pendFire_append htag hpre]
    subst htag
    rfl

/-- Settles O41: the whole buffer sent, or less of it. -/
theorem primaryWriteDone : Obligations.PrimaryWriteDone := by
  intro wid n r s hr hk
  have hfound := wrFind_of_found_or_mem hr
  refine ⟨fun hn => ?_, fun hn => ?_⟩
  · exact (execWriteDone_of_primary hfound hk hn.le).trans (congrArg Host.Outcome.next (if_pos hn))
  · exact (execWriteDone_of_primary hfound hk hn.le).trans (congrArg Host.Outcome.next (if_neg hn.ne))

/-- Settles O42: the bound is the one `WR` keeps for a retry. -/
theorem retryWriteDone : Obligations.RetryWriteDone := by
  intro wid n r s hr hk hn
  have hfound := wrFind_of_found_or_mem hr
  refine ⟨execWriteDone_of_retry hfound hk hn, fun hinv => ?_⟩
  obtain ⟨-, hrec⟩ := hinv
  obtain ⟨-, -, hretry⟩ := hrec r (wrFind_some hfound).1
  have hdue : r.tSend + 100 ≤ s.now := hretry hk
  omega

/-- Settles O43: what a reset writes does not depend on what it writes over. -/
theorem resetEffect : Obligations.ResetEffect := by
  refine fun s => ⟨rfl, fun t h => ?_⟩
  cases h
  rfl

/-- Settles O44: latching is all that an unchanged `connected` leaves, and the reset keeps what was latched. -/
theorem linkEffect : Obligations.LinkEffect := by
  refine fun c o s => ⟨fun hc => ?_, fun hc => ?_⟩
  · subst hc
    exact congrArg Host.Outcome.next (if_pos rfl)
  · have hexec : exec (.link c o) s = .next { s with connected := c, offline := o }.resetLink :=
      congrArg Host.Outcome.next (if_neg hc)
    exact ⟨hexec, _, hexec, rfl, rfl, rfl, rfl, rfl, rfl, rfl⟩

/-- Settles O45: the one comparison of TICK, both ways. -/
theorem tickEffect : Obligations.TickEffect :=
  fun _ _ => ⟨fun h => if_neg (Nat.not_lt.mpr h), fun h => if_pos h⟩

/-- Settles O46: the construction checks the parameters in the order of its two refusals. -/
theorem powerOnState : Obligations.PowerOnState := by
  refine ⟨rfl, fun p => ⟨fun ⟨hmin, hmax, hw⟩ => ?_, fun h => if_pos h, fun hmin hmax hw => ?_, rfl, ?_⟩⟩
  · exact (if_neg (by simp [Config.tMin, Config.tMax]; omega)).trans (if_neg hw)
  · exact (if_neg (by simp [Config.tMin, Config.tMax]; omega)).trans (if_pos hw)
  · exact ⟨rfl, ⟨rfl, rfl, rfl, rfl, rfl, rfl, rfl⟩, rfl, rfl, rfl, rfl, rfl, rfl, rfl, rfl, rfl, rfl, rfl, rfl, rfl,
      rfl, rfl⟩

/-- Settles O56: each cause is raised by one event in one situation, where that event's outcome is known. -/
theorem errorCausesReported : Obligations.ErrorCausesReported := by
  refine fun i s => ⟨fun h => ?_, fun h => ?_, fun h => ?_, fun h => ?_, fun h => ?_⟩
  · cases causeRaised_of_causeOf h with
    | framingDesync hcase => exact exec_framingDesync hcase
  · cases causeRaised_of_causeOf h with
    | checksumFailure hst hb =>
      refine ⟨_, (matchPend s.cfg.matchPolicy (s.frameOf (checksumVersion s.state) false) s.pend).1,
        exec_checksumFailure hst hb, rfl, ?_, rfl, fun o ho => ?_⟩
      · rw [State.dispatch_out, List.append_assoc]
        rfl
      · obtain ⟨e, he, hcode, hask, ho⟩ := mem_matchPend ho
        exact ⟨e, he, hcode, hask.resolve_left Bool.false_ne_true, ho⟩
  · cases causeRaised_of_causeOf h with
    | timeout hfind harmed hdue =>
      obtain ⟨pre, post, hpend, htag, hexec⟩ := exec_timeout hfind harmed hdue
      exact ⟨_, _, pre, post, _, rfl, hpend, htag, hexec, rfl, rfl, rfl⟩
  · cases causeRaised_of_causeOf h with
    | linkDown hlink =>
      exact ⟨_, _, _, _, rfl, (execSend_of_down hlink).trans (congrArg Host.Outcome.next (emit_emit s _ _))⟩
  · obtain ⟨c, hc⟩ := Option.ne_none_iff_exists'.mp h
    obtain ⟨t, ht⟩ := (causeRaised_of_causeOf hc).completes
    exact ⟨t, ht, (exec_frame ht).2.1⟩

end

section
/-! SUPPORT. Feeding bytes inside a frame: a run that only the decoder's working fields see, through the header and the
payload to the checksum byte (spec 30_encoding.md R71 to R73, R85, 42_decoder.md). -/

namespace Sys2Proof.Machine

/-! ### The working fields of the decoder -/

/-- The working fields (10_state.md R21 to R29). -/
structure Fields where
  state : DecState
  dir : BitVec 1
  unsup : Bool
  lenExp : Half
  lenRcv : Half
  buf : List Byte
  cap : Half
  acc : Byte
  jumbo : Bool
  code : Half

/-- Their values between frames (10_state.md R30). -/
def Fields.idle : Fields := ⟨DecState.idle, 0, false, 0, 0, [], 0, 0, false, 0⟩

def State.fields (s : State) : Fields :=
  ⟨s.state, s.dir, s.unsup, s.lenExp, s.lenRcv, s.buf, s.cap, s.acc, s.jumbo, s.code⟩

/-- The machine inside a frame: `s` with the events `inp` left, nothing emitted by the last step, and the working
fields `w`. -/
def State.inFrame (s : State) (inp : List EventWord) (w : Fields) : State :=
  { s with
    input := inp, out := []
    state := w.state, dir := w.dir, unsup := w.unsup, lenExp := w.lenExp, lenRcv := w.lenRcv, buf := w.buf, cap := w.cap
    acc := w.acc, jumbo := w.jumbo, code := w.code }

theorem takeEvent_eq_inFrame (s : State) (rest : List EventWord) : s.takeEvent rest = s.inFrame rest s.fields := rfl

theorem Idle.fields_eq {s : State} (h : Idle s) : s.fields = .idle := by
  obtain ⟨hst, ⟨hlen, hrcv, hbuf, hcap, hacc, hjumbo, hcode⟩, hdir, hunsup⟩ := h
  rw [State.fields, hst, hlen, hrcv, hbuf, hcap, hacc, hjumbo, hcode, hdir, hunsup]
  rfl

/-! ### Runs of bytes that emit nothing -/

/-- In the machine `s` the byte `b` only takes the working fields from `w` to `w'`. -/
def Advances (s : State) (b : Byte) (w w' : Fields) : Prop :=
  ∀ inp, execFeed b (s.inFrame inp w) = .next (s.inFrame inp w')

/-- And so do the bytes of a sequence, one after the other. -/
inductive AdvancesBy (s : State) : List Byte → Fields → Fields → Prop
  | nil {w : Fields} : AdvancesBy s [] w w
  | cons {b : Byte} {bs : List Byte} {w v w' : Fields} (hb : Advances s b w v) (hbs : AdvancesBy s bs v w') :
      AdvancesBy s (b :: bs) w w'

theorem AdvancesBy.append {s : State} {xs ys : List Byte} {w v w' : Fields} (hx : AdvancesBy s xs w v)
    (hy : AdvancesBy s ys v w') : AdvancesBy s (xs ++ ys) w w' := by
  induction hx with
  | nil => exact hy
  | cons hb _ ih => exact .cons hb (ih hy)

/-- A step at a byte is what the byte does to the fields. -/
theorem Advances.step {s t : State} {b : Byte} {w w' : Fields} {rest : List EventWord} (h : Advances s b w w')
    (htake : t.takeEvent rest = s.inFrame rest w) (hin : t.input = feedWord b :: rest) :
    step t = .next (s.inFrame rest w') := by
  rw [step_feedWord hin, htake, h rest]
  rfl

theorem runSteps_succ {s t : State} (h : step s = .next t) (k : Nat) : runSteps (k + 1) s = runSteps k t := by
  rw [runSteps, h]

/-- A step after a run. -/
theorem runSteps_then_step {k : Nat} {s t : State} {r : StepResult State} (h : runSteps k s = .next t)
    (hstep : step t = r) : runSteps (k + 1) s = r := by
  induction k generalizing s with
  | zero =>
    cases h
    rw [runSteps, hstep]
    cases r <;> rfl
  | succ k ih =>
    rw [runSteps] at h
    split at h
    · next u hu => rw [runSteps_succ hu, ih h]
    · cases h
    · cases h

/-- A run inside a frame takes its bytes and emits nothing at any step. -/
theorem AdvancesBy.run_inFrame {s : State} {bs : List Byte} {w w' : Fields} (h : AdvancesBy s bs w w')
    (rest : List EventWord) :
    runSteps bs.length (s.inFrame (feeds bs ++ rest) w) = .next (s.inFrame rest w') ∧
      ∀ k ≤ bs.length, ∃ inp v, runSteps k (s.inFrame (feeds bs ++ rest) w) = .next (s.inFrame inp v) := by
  induction h with
  | nil =>
    refine ⟨rfl, fun k hk => ?_⟩
    obtain rfl : k = 0 := Nat.le_zero.mp hk
    exact ⟨_, _, rfl⟩
  | @cons b bs w v w' hb _ ih =>
    obtain ⟨hrun, hquiet⟩ := ih
    have hstep := hb.step (t := s.inFrame (feeds (b :: bs) ++ rest) w) (rest := feeds bs ++ rest) rfl rfl
    refine ⟨(runSteps_succ hstep _).trans hrun, fun k hk => ?_⟩
    rcases k with _ | k
    · exact ⟨_, _, rfl⟩
    · rw [runSteps_succ hstep]
      exact hquiet k (Nat.le_of_succ_le_succ hk)

/-- Nothing is emitted and nothing raised by the steps before step `n`. -/
def QuietBefore (s : State) (n : Nat) : Prop :=
  ∀ k, 0 < k → k < n → ∃ u, runSteps k s = .next u ∧ u.out = [] ∧ u.faults = s.faults

/-- The same from any machine with the bytes as its next events, whatever it has emitted before. -/
theorem AdvancesBy.run {s : State} {bs : List Byte} {w : Fields} (h : AdvancesBy s bs s.fields w) (hne : bs ≠ [])
    {rest : List EventWord} (hin : s.input = feeds bs ++ rest) :
    runSteps bs.length s = .next (s.inFrame rest w) ∧ QuietBefore s (bs.length + 1) := by
  cases h with
  | nil => exact absurd rfl hne
  | cons hb hbs =>
    obtain ⟨hrun, hquiet⟩ := hbs.run_inFrame rest
    have hstep := hb.step (takeEvent_eq_inFrame s _) hin
    refine ⟨(runSteps_succ hstep _).trans hrun, fun k hpos hk => ?_⟩
    obtain ⟨k, rfl⟩ := Nat.exists_eq_succ_of_ne_zero hpos.ne'
    obtain ⟨inp, v, hk⟩ := hquiet k (Nat.le_of_succ_le_succ (Nat.le_of_lt_succ hk))
    exact ⟨_, (runSteps_succ hstep k).trans hk, rfl, rfl⟩

/-! ### The payload -/

section
variable {s : State} {f : Byte → Byte → Byte} {st done : DecState}

/-- `st` is a payload state: it appends each byte, checksums it with `f`, and goes to `done` after the last. -/
def AppendsIn (f : Byte → Byte → Byte) (st done : DecState) : Prop :=
  ∀ (t : State) (b : Byte), t.state = st → t.lenExp ≠ 0 → execFeed b t = t.payloadByte b (f t.acc b) done

theorem appendsIn_payloadV1 : AppendsIn (fun a b => a ^^^ b) DecState.payloadV1 DecState.checksumV1 :=
  fun t b hst hlen => (execFeed_payloadV1 b t hst).trans (execPayloadV1_of_length hlen b)

theorem appendsIn_payloadV2 : AppendsIn crcStep DecState.payloadV2 DecState.checksumV2 :=
  fun t b hst _ => execFeed_payloadV2 b t hst

/-- One payload byte with room. -/
theorem AppendsIn.advances (h : AppendsIn f st done) {w : Fields} (b : Byte) (hst : w.state = st)
    (hroom : w.buf.length < w.lenExp.toNat) (hcap : w.cap = w.lenExp) :
    Advances s b w { w with
      buf := w.buf ++ [b], lenRcv := w.lenRcv + 1, acc := f w.acc b
      state := if w.lenRcv + 1 = w.lenExp then done else w.state } := by
  intro inp
  have hlen : w.lenExp ≠ 0 := fun e => by simp [e] at hroom
  rw [h _ b hst hlen, payloadByte_of_room (by rw [← hcap] at hroom; exact hroom)]
  rfl

/-- The rest of a payload, to the checksum state. -/
theorem AppendsIn.advancesBy (h : AppendsIn f st done) {bs : List Byte} {w : Fields} (hne : bs ≠ [])
    (hst : w.state = st) (hcap : w.cap = w.lenExp) (hrcv : w.lenRcv.toNat = w.buf.length)
    (hlen : w.buf.length + bs.length = w.lenExp.toNat) :
    AdvancesBy s bs w
      { w with buf := w.buf ++ bs, lenRcv := w.lenExp, acc := bs.foldl f w.acc, state := done } := by
  induction bs generalizing w with
  | nil => exact absurd rfl hne
  | cons b bs ih =>
    rw [List.length_cons] at hlen
    have hroom : w.buf.length < w.lenExp.toNat := by omega
    have hsucc := toNat_succ_of_lt hrcv hroom
    have hb := h.advances (s := s) b hst hroom hcap
    rcases eq_or_ne bs [] with rfl | hmore
    · have hlast : w.lenRcv + 1 = w.lenExp := BitVec.eq_of_toNat_eq (hsucc.trans (by simpa using hlen))
      rw [if_pos hlast, hlast] at hb
      exact .cons hb .nil
    · have hpos := List.length_pos_of_ne_nil hmore
      have hgo : w.lenRcv + 1 ≠ w.lenExp := fun e => by rw [e] at hsucc; omega
      rw [if_neg hgo] at hb
      have hrest := ih (w := { w with buf := w.buf ++ [b], lenRcv := w.lenRcv + 1, acc := f w.acc b }) hmore hst hcap
        (by simpa using hsucc) (by simp; omega)
      rw [List.append_assoc] at hrest
      exact .cons hb hrest

/-- A whole payload, from the header to the checksum state: with length 0 the header ends there. -/
theorem AppendsIn.advancesBy_payload (h : AppendsIn f st done) {payload : List Byte} {w : Fields}
    (hst : w.state = if w.lenExp = 0 then done else st) (hbuf : w.buf = []) (hrcv : w.lenRcv = 0)
    (hcap : w.cap = w.lenExp) (hlen : payload.length = w.lenExp.toNat) :
    AdvancesBy s payload w
      { w with buf := payload, lenRcv := w.lenExp, acc := payload.foldl f w.acc, state := done } := by
  rcases eq_or_ne payload [] with rfl | hne
  · have hzero : w.lenExp = 0 := BitVec.eq_of_toNat_eq hlen.symm
    rw [if_pos hzero] at hst
    obtain ⟨state, dir, unsup, lenExp, lenRcv, buf, cap, acc, jumbo, code⟩ := w
    simp only at hst hbuf hrcv hzero
    subst hst hbuf hrcv hzero
    exact .nil
  · have hpos := List.length_pos_of_ne_nil hne
    have hzero : w.lenExp ≠ 0 := fun e => by rw [e] at hlen; simp at hlen; exact hne hlen
    have hrun := h.advancesBy (s := s) hne (hst.trans (if_neg hzero)) hcap (by rw [hrcv, hbuf]; rfl)
      (by rw [hbuf, List.length_nil, Nat.zero_add, hlen])
    rw [hbuf, List.nil_append] at hrun
    exact hrun

end

/-! ### The header bytes -/

section
variable (s : State) {w : Fields} (b : Byte)

theorem advances_sync (hst : w.state = DecState.idle) :
    Advances s 0x24 w { w with state := DecState.protoIdentifier } := fun _ => execFeed_idle 0x24 _ hst

theorem advances_protoM (hst : w.state = DecState.protoIdentifier) :
    Advances s 0x4D w { w with state := DecState.directionV1 } := fun _ => execFeed_protoIdentifier 0x4D _ hst

theorem advances_protoX (hst : w.state = DecState.protoIdentifier) :
    Advances s 0x58 w { w with state := DecState.directionV2 } := fun _ => execFeed_protoIdentifier 0x58 _ hst

/-- The fields after a direction byte. -/
def Fields.direction (w : Fields) (b : Byte) (st : DecState) : Fields :=
  { w with unsup := unsupFlag b, dir := if b = 0x3E then 1 else if b = 0x3C then 0 else w.dir, state := st }

theorem advances_directionV1 (hst : w.state = DecState.directionV1) :
    Advances s b w (w.direction b DecState.payloadLengthV1) := fun _ => execFeed_directionV1_eq b hst

theorem advances_directionV2 (hst : w.state = DecState.directionV2) :
    Advances s b w (w.direction b DecState.flagV2) := fun _ => execFeed_directionV2_eq b hst

theorem advances_lenV1 (hst : w.state = DecState.payloadLengthV1) (hb : b ≠ 0xFF) :
    Advances s b w { w with
      lenExp := zext16 b, acc := b, buf := [], cap := zext16 b, state := DecState.codeV1 } :=
  fun _ => (execFeed_payloadLengthV1 b _ hst).trans (if_neg hb)

theorem advances_lenV1Jumbo (hst : w.state = DecState.payloadLengthV1) :
    Advances s 0xFF w { w with lenExp := 255, acc := 0xFF, jumbo := true, state := DecState.codeJumboV1 } :=
  fun _ => execFeed_payloadLengthV1 0xFF _ hst

theorem advances_codeV1 (hst : w.state = DecState.codeV1) :
    Advances s b w { w with
      code := zext16 b, acc := w.acc ^^^ b
      state := if w.lenExp = 0 then DecState.checksumV1 else DecState.payloadV1 } :=
  fun _ => execFeed_codeV1 b _ hst

theorem advances_codeJumboV1 (hst : w.state = DecState.codeJumboV1) :
    Advances s b w { w with code := zext16 b, acc := w.acc ^^^ b, state := DecState.payloadLengthJumboLow } :=
  fun _ => execFeed_codeJumboV1 b _ hst

theorem advances_jlenLo (hst : w.state = DecState.payloadLengthJumboLow) :
    Advances s b w { w with lenExp := zext16 b, acc := w.acc ^^^ b, state := DecState.payloadLengthJumboHigh } :=
  fun _ => execFeed_payloadLengthJumboLow b _ hst

theorem advances_jlenHi (hst : w.state = DecState.payloadLengthJumboHigh) :
    Advances s b w { w with
      lenExp := joinHi w.lenExp b, acc := w.acc ^^^ b, buf := [], cap := joinHi w.lenExp b
      state := afterJumboLength s.cfg.jumboZero (joinHi w.lenExp b) } :=
  fun _ => execFeed_payloadLengthJumboHigh b _ hst

theorem advances_flagV2 (hst : w.state = DecState.flagV2) :
    Advances s b w { w with acc := crcStep 0 0, state := DecState.codeV2Low } := fun _ => execFeed_flagV2 b _ hst

theorem advances_codeV2Lo (hst : w.state = DecState.codeV2Low) :
    Advances s b w { w with code := zext16 b, acc := crcStep w.acc b, state := DecState.codeV2High } :=
  fun _ => execFeed_codeV2Low b _ hst

theorem advances_codeV2Hi (hst : w.state = DecState.codeV2High) :
    Advances s b w { w with code := joinHi w.code b, acc := crcStep w.acc b, state := DecState.payloadLengthV2Low } :=
  fun _ => execFeed_codeV2High b _ hst

theorem advances_lenV2Lo (hst : w.state = DecState.payloadLengthV2Low) :
    Advances s b w { w with lenExp := zext16 b, acc := crcStep w.acc b, state := DecState.payloadLengthV2High } :=
  fun _ => execFeed_payloadLengthV2Low b _ hst

theorem advances_lenV2Hi (hst : w.state = DecState.payloadLengthV2High) :
    Advances s b w { w with
      lenExp := joinHi w.lenExp b, acc := crcStep w.acc b, buf := [], cap := joinHi w.lenExp b
      state := if joinHi w.lenExp b = 0 then DecState.checksumV2 else DecState.payloadV2 } :=
  fun _ => execFeed_payloadLengthV2High b _ hst

end

/-! ### The headers -/

section
variable (s : State) (dir : Byte)

/-- The fields after the header of a jumbo frame. -/
def Fields.afterJumboHeader (p : JumboZero) (dir c lo hi : Byte) : Fields :=
  { Fields.idle.direction dir (afterJumboLength p (joinHi (zext16 lo) hi)) with
    lenExp := joinHi (zext16 lo) hi, cap := joinHi (zext16 lo) hi, acc := 0xFF ^^^ c ^^^ lo ^^^ hi, jumbo := true
    code := zext16 c }

theorem advancesBy_jumboHeader (c lo hi : Byte) :
    AdvancesBy s [0x24, 0x4D, dir, 0xFF, c, lo, hi] .idle (.afterJumboHeader s.cfg.jumboZero dir c lo hi) :=
  .cons (advances_sync s rfl) <| .cons (advances_protoM s rfl) <| .cons (advances_directionV1 s dir rfl) <|
    .cons (advances_lenV1Jumbo s rfl) <| .cons (advances_codeJumboV1 s c rfl) <| .cons (advances_jlenLo s lo rfl) <|
    .cons (advances_jlenHi s hi rfl) .nil

/-- The fields after the header of a V1 frame. -/
def Fields.afterHeaderV1 (dir n c : Byte) : Fields :=
  { Fields.idle.direction dir (if zext16 n = 0 then DecState.checksumV1 else DecState.payloadV1) with
    lenExp := zext16 n, cap := zext16 n, acc := n ^^^ c, code := zext16 c }

theorem advancesBy_headerV1 {n : Byte} (hn : n ≠ 0xFF) (c : Byte) :
    AdvancesBy s [0x24, 0x4D, dir, n, c] .idle (.afterHeaderV1 dir n c) :=
  .cons (advances_sync s rfl) <| .cons (advances_protoM s rfl) <| .cons (advances_directionV1 s dir rfl) <|
    .cons (advances_lenV1 s n rfl hn) <| .cons (advances_codeV1 s c rfl) .nil

/-- The fields after the header of a V2 frame. -/
def Fields.afterHeaderV2 (dir clo chi lo hi : Byte) : Fields :=
  { Fields.idle.direction dir
      (if joinHi (zext16 lo) hi = 0 then DecState.checksumV2 else DecState.payloadV2) with
    lenExp := joinHi (zext16 lo) hi, cap := joinHi (zext16 lo) hi, acc := crc8 0 [0, clo, chi, lo, hi]
    code := joinHi (zext16 clo) chi }

theorem advancesBy_headerV2 (flag clo chi lo hi : Byte) :
    AdvancesBy s [0x24, 0x58, dir, flag, clo, chi, lo, hi] .idle (.afterHeaderV2 dir clo chi lo hi) :=
  .cons (advances_sync s rfl) <| .cons (advances_protoX s rfl) <| .cons (advances_directionV2 s dir rfl) <|
    .cons (advances_flagV2 s flag rfl) <| .cons (advances_codeV2Lo s clo rfl) <| .cons (advances_codeV2Hi s chi rfl) <|
    .cons (advances_lenV2Lo s lo rfl) <| .cons (advances_lenV2Hi s hi rfl) .nil

/-! ### Whole frames, up to the checksum byte -/

/-- At the checksum byte, everything received. -/
structure AtChecksum (w : Fields) (st : DecState) (code : Half) (payload : List Byte) (acc : Byte) : Prop where
  state : w.state = st
  code : w.code = code
  buf : w.buf = payload
  acc : w.acc = acc

theorem advancesBy_frameV1 {n c : Byte} {payload : List Byte} (hn : n.toNat ≤ 254) (hlen : payload.length = n.toNat) :
    ∃ w, AdvancesBy s ([0x24, 0x4D, dir] ++ n :: c :: payload) .idle w ∧
      AtChecksum w DecState.checksumV1 (zext16 c) payload (xor8 (n :: c :: payload)) := by
  have hne : n ≠ 0xFF := fun e => by rw [e] at hn; exact absurd hn (by decide)
  have hheader := advancesBy_headerV1 s dir hne c
  have hpayload := appendsIn_payloadV1.advancesBy_payload (s := s) (w := .afterHeaderV1 dir n c) rfl rfl rfl rfl
    (hlen.trans (toNat_zext16 n).symm)
  refine ⟨_, hheader.append hpayload, rfl, rfl, rfl, ?_⟩
  rw [xor8_foldl, xor8_cons, xor8_cons, ← BitVec.xor_assoc]
  rfl

theorem advancesBy_frameV1Jumbo {c lo hi : Byte} {payload : List Byte}
    (hlen : payload.length = (joinHi (zext16 lo) hi).toNat)
    (hzero : payload ≠ [] ∨ s.cfg.jumboZero = .directChecksum) :
    ∃ w, AdvancesBy s ([0x24, 0x4D, dir] ++ 0xFF :: c :: lo :: hi :: payload) .idle w ∧
      AtChecksum w DecState.checksumV1 (zext16 c) payload (xor8 (0xFF :: c :: lo :: hi :: payload)) := by
  have hnext : afterJumboLength s.cfg.jumboZero (joinHi (zext16 lo) hi) =
      if joinHi (zext16 lo) hi = 0 then DecState.checksumV1 else DecState.payloadV1 := by
    rw [afterJumboLength_eq]
    rcases hzero with hne | hdirect
    · have hlen0 : joinHi (zext16 lo) hi ≠ 0 := fun e => hne (List.eq_nil_of_length_eq_zero (by rw [hlen, e]; rfl))
      rw [if_neg hlen0, if_neg (fun h => hlen0 h.1)]
    · simp [hdirect]
  have hheader := advancesBy_jumboHeader s dir c lo hi
  have hpayload := appendsIn_payloadV1.advancesBy_payload (s := s) (w := .afterJumboHeader s.cfg.jumboZero dir c lo hi)
    hnext rfl rfl rfl hlen
  refine ⟨_, hheader.append hpayload, rfl, rfl, rfl, ?_⟩
  rw [xor8_foldl, xor8_cons, xor8_cons, xor8_cons, xor8_cons, ← BitVec.xor_assoc, ← BitVec.xor_assoc,
    ← BitVec.xor_assoc]
  rfl

theorem advancesBy_frameV2 {flag clo chi lo hi : Byte} {payload : List Byte}
    (hlen : payload.length = (joinHi (zext16 lo) hi).toNat) :
    ∃ w, AdvancesBy s ([0x24, 0x58, dir, flag] ++ clo :: chi :: lo :: hi :: payload) .idle w ∧
      AtChecksum w DecState.checksumV2 (joinHi (zext16 clo) chi) payload
        (crc8 0 (0 :: clo :: chi :: lo :: hi :: payload)) := by
  have hheader := advancesBy_headerV2 s dir flag clo chi lo hi
  have hpayload := appendsIn_payloadV2.advancesBy_payload (s := s) (w := .afterHeaderV2 dir clo chi lo hi) rfl rfl
    rfl rfl hlen
  exact ⟨_, hheader.append hpayload, rfl, rfl, rfl, rfl⟩

end

/-! ### The checksum byte -/

/-- The machine after a frame was dispatched from an idle decoder: as `delivered`, with an invalid frame counted. -/
def dispatched (s : State) (rest : List EventWord) (fr : Frame) : State :=
  { delivered s rest fr with crcerr := crcerrAfter s.cfg.crcerrW s.crcerr fr.valid }

theorem dispatched_of_valid {s : State} {fr : Frame} (h : fr.valid = true) (rest : List EventWord) :
    dispatched s rest fr = delivered s rest fr := by
  rw [dispatched, h]
  rfl

theorem dispatch_inFrame {s : State} (hidle : Idle s) (rest : List EventWord) (w : Fields) (ver : Version)
    (valid : Bool) : (s.inFrame rest w).dispatch ver valid =
      dispatched s rest ⟨ver, w.code, if valid then w.buf else [], valid⟩ := by
  obtain ⟨hst, ⟨hlen, hrcv, hbuf, hcap, hacc, hjumbo, hcode⟩, hdir, hunsup⟩ := hidle
  rw [dispatch_eq]
  simp [dispatched, delivered, State.inFrame, State.frameOf, hst, hlen, hrcv, hbuf, hcap, hacc, hjumbo, hcode, hdir,
    hunsup]

/-- A frame fed to an idle decoder is dispatched at its last byte, and nothing is emitted before. -/
theorem run_frame {s : State} (hidle : Idle s) {bs : List Byte} {w : Fields} (h : AdvancesBy s bs .idle w)
    (hne : bs ≠ []) {st : DecState} {code : Half} {payload : List Byte} {acc : Byte}
    (hw : AtChecksum w st code payload acc) (hst : st = DecState.checksumV1 ∨ st = DecState.checksumV2)
    (chk : Byte) {rest : List EventWord} (hin : s.input = feeds (bs ++ [chk]) ++ rest) :
    runSteps (bs ++ [chk]).length s = .next (dispatched s rest
        ⟨checksumVersion st, code, if validFlag chk acc then payload else [], validFlag chk acc⟩) ∧
      QuietBefore s (bs ++ [chk]).length := by
  obtain ⟨rfl, rfl, rfl, rfl⟩ := hw
  have hsplit : s.input = feeds bs ++ (feedWord chk :: rest) := by rw [hin]; simp [feeds]
  obtain ⟨hrun, hquiet⟩ := AdvancesBy.run (hidle.fields_eq ▸ h) hne hsplit
  have hstep : step (s.inFrame (feedWord chk :: rest) w) =
      .next ((s.inFrame rest w).dispatch (checksumVersion w.state) (validFlag chk w.acc)) := by
    rw [step_feedWord (rest := rest) rfl]
    exact congrArg (settle _) (exec_feed_checksum (s := s.inFrame rest w) hst chk)
  rw [List.length_append, List.length_singleton]
  exact ⟨by rw [runSteps_then_step hrun hstep, dispatch_inFrame hidle], hquiet⟩

end Sys2Proof.Machine

open Sys2Proof Sys2Proof.Machine

end

section
/-! SUPPORT. Whole wire frames fed to an idle decoder: delivered valid as sent, dispatched invalid with one byte
changed, and the jumbo frame that never ends (spec 30_encoding.md R71 to R73, 42_decoder.md section 10,
70_reset_and_hazards.md section 3). -/

namespace Sys2Proof.Machine

/-! ### Frames as sent -/

/-- The frame is delivered at its last byte, and nothing is emitted before. -/
def DeliveredAtLast (s : State) (rest : List EventWord) (frame : List Byte) (fr : Frame) : Prop :=
  runSteps frame.length s = .next (delivered s rest fr) ∧ QuietBefore s frame.length

theorem validFlag_self (b : Byte) : validFlag b b = true := by simp [validFlag]

/-- The length byte of a V1 frame is the payload's length. -/
theorem toNat_loByte_lenHalf {payload : List Byte} (h : payload.length ≤ 254) :
    (loByte (lenHalf payload)).toNat = payload.length := by
  rw [loByte_lenHalf, BitVec.toNat_ofNat]
  omega

/-- The two length bytes of a jumbo or a V2 frame join to the payload's length. -/
theorem length_eq_toNat_joinHi {payload : List Byte} (h : payload.length ≤ 65535) :
    payload.length = (joinHi (zext16 (loByte (lenHalf payload))) (hiByte (lenHalf payload))).toNat := by
  rw [joinHi_loByte_hiByte, toNat_lenHalf h]

/-- A frame whose checksum byte is the accumulator is delivered. -/
theorem deliveredAtLast_of_advances {s : State} (hidle : Idle s) {bs : List Byte} {w : Fields}
    (h : AdvancesBy s bs .idle w) (hne : bs ≠ []) {st : DecState} {code : Half} {payload : List Byte} {acc : Byte}
    (hw : AtChecksum w st code payload acc) (hst : st = DecState.checksumV1 ∨ st = DecState.checksumV2)
    {rest : List EventWord} (hin : s.input = feeds (bs ++ [acc]) ++ rest) :
    DeliveredAtLast s rest (bs ++ [acc]) ⟨checksumVersion st, code, payload, true⟩ := by
  obtain ⟨hrun, hquiet⟩ := run_frame hidle h hne hw hst acc hin
  rw [validFlag_self, dispatched_of_valid rfl] at hrun
  exact ⟨hrun, hquiet⟩

section
variable {s : State} (hidle : Idle s) {rest : List EventWord} {dir : Byte} {payload : List Byte}
include hidle

theorem deliveredAtLast_wireV1 {c : Byte} (hlen : payload.length ≤ 254)
    (hin : s.input = feeds (wireV1 dir c payload) ++ rest) :
    DeliveredAtLast s rest (wireV1 dir c payload) ⟨.v1, zext16 c, payload, true⟩ := by
  have hn := toNat_loByte_lenHalf hlen
  obtain ⟨w, hbs, hw⟩ := advancesBy_frameV1 s dir (n := loByte (lenHalf payload)) (c := c) (hn ▸ hlen) hn.symm
  exact deliveredAtLast_of_advances hidle hbs (by simp) hw (.inl rfl) hin

theorem deliveredAtLast_wireV1Jumbo {c : Byte} (hlen : payload.length ≤ 65535)
    (hzero : payload ≠ [] ∨ s.cfg.jumboZero = .directChecksum)
    (hin : s.input = feeds (wireV1Jumbo dir c payload) ++ rest) :
    DeliveredAtLast s rest (wireV1Jumbo dir c payload) ⟨.v1, zext16 c, payload, true⟩ := by
  have hn := length_eq_toNat_joinHi hlen
  obtain ⟨w, hbs, hw⟩ := advancesBy_frameV1Jumbo s dir (c := c) hn hzero
  exact deliveredAtLast_of_advances hidle hbs (by simp) hw (.inl rfl) hin

theorem deliveredAtLast_wireV2 {flag : Byte} {code : Half} (hlen : payload.length ≤ 65535)
    (hin : s.input = feeds (wireV2 dir flag code payload) ++ rest) :
    DeliveredAtLast s rest (wireV2 dir flag code payload) ⟨.v2, code, payload, true⟩ := by
  have hn := length_eq_toNat_joinHi hlen
  obtain ⟨w, hbs, hw⟩ := advancesBy_frameV2 s dir (flag := flag) (clo := loByte code) (chi := hiByte code) hn
  rw [joinHi_loByte_hiByte] at hw
  exact deliveredAtLast_of_advances hidle hbs (by simp) hw (.inr rfl) hin

end

/-! ### One byte changed -/

/-- A byte replaced inside the middle of three parts. -/
theorem set_middle {pre mid post : List Byte} {q : Nat} (hq : q < mid.length) (x : Byte) :
    (pre ++ mid ++ post).set (pre.length + q) x = pre ++ mid.set q x ++ post := by
  rw [List.append_assoc, List.set_append_right _ _ (Nat.le_add_right _ _), Nat.add_sub_cancel_left,
    List.set_append_left _ _ hq, List.append_assoc]

theorem getElem?_middle {pre mid post : List Byte} {q : Nat} (hq : q < mid.length) :
    (pre ++ mid ++ post)[pre.length + q]? = mid[q]? := by
  rw [List.append_assoc, List.getElem?_append_right (Nat.le_add_right _ _), Nat.add_sub_cancel_left,
    List.getElem?_append_left hq]

/-- A sequence around the byte replaced, before and after. -/
theorem set_split {l : List Byte} {q : Nat} {x : Byte} (hq : q < l.length) (hx : l[q]? ≠ some x) :
    ∃ pre a post, a ≠ x ∧ l = pre ++ a :: post ∧ l.set q x = pre ++ x :: post := by
  refine ⟨l.take q, l[q], l.drop (q + 1), fun e => hx (e ▸ List.getElem?_eq_getElem hq), ?_, ?_⟩
  · rw [List.getElem_cons_drop, List.take_append_drop]
  · exact List.set_eq_take_append_cons_drop.trans (if_pos hq)

theorem xor8_set_ne {l : List Byte} {q : Nat} {x : Byte} (hq : q < l.length) (hx : l[q]? ≠ some x) :
    xor8 l ≠ xor8 (l.set q x) := by
  obtain ⟨pre, a, post, hne, hl, hset⟩ := set_split hq hx
  rw [hset, hl]
  exact xor8_changed_byte pre post hne

theorem crc8_set_ne {l : List Byte} {q : Nat} {x : Byte} (hq : q < l.length) (hx : l[q]? ≠ some x) (seed : Byte) :
    crc8 seed l ≠ crc8 seed (l.set q x) := by
  obtain ⟨pre, a, post, hne, hl, hset⟩ := set_split hq hx
  rw [hset, hl]
  exact crc8_changed_byte seed pre post hne

/-- The frame is dispatched invalid and counted once. -/
def CountedInvalid (s : State) (rest : List EventWord) (n : Nat) : Prop :=
  ∃ (t : State) (fr : Frame), runSteps n s = .next t ∧ t.out.head? = some (.frameOut fr) ∧
    fr.valid = false ∧ fr.payload = [] ∧ t.crcerr = (s.crcerr + 1) % 2 ^ s.cfg.crcerrW ∧ Idle t ∧ t.input = rest

/-- A frame of a header `pre`, the bytes `body` the checksum byte `chk` covers, and `chk`, whose byte `q` of `body` is
replaced: counted where the decoder accumulates another checksum than `chk`. -/
theorem countedInvalid_of_advances {s : State} (hidle : Idle s) {pre body : List Byte} {q : Nat} (hq : q < body.length)
    {x chk : Byte} {w : Fields} (h : AdvancesBy s (pre ++ body.set q x) .idle w) {st : DecState} {code : Half}
    {payload : List Byte} {acc : Byte} (hw : AtChecksum w st code payload acc)
    (hst : st = DecState.checksumV1 ∨ st = DecState.checksumV2) (hchk : chk ≠ acc) {rest : List EventWord}
    (hin : s.input = feeds ((pre ++ body ++ [chk]).set (pre.length + q) x) ++ rest) :
    CountedInvalid s rest (pre ++ body ++ [chk]).length := by
  have hlen : (pre ++ body.set q x ++ [chk]).length = (pre ++ body ++ [chk]).length := by simp
  have hne : pre ++ body.set q x ≠ [] := List.ne_nil_of_length_pos (by simp; omega)
  have hinvalid : validFlag chk acc = false := by simpa [validFlag] using hchk
  rw [set_middle hq] at hin
  obtain ⟨hrun, -⟩ := run_frame hidle h hne hw hst chk hin
  rw [hinvalid, hlen] at hrun
  exact ⟨_, ⟨checksumVersion st, code, [], false⟩, hrun, rfl, rfl, rfl, rfl, hidle, rfl⟩

section
variable {s : State} (hidle : Idle s) {rest : List EventWord} {dir x : Byte} {payload : List Byte} {q : Nat}
include hidle

/-- The code byte of a V1 frame is byte 1 of what its checksum covers, the payload begins at byte 2. -/
theorem countedInvalid_wireV1 {c : Byte} (hlen : payload.length ≤ 254) (hq : q = 1 ∨ 2 ≤ q ∧ q < 2 + payload.length)
    (hx : (wireV1 dir c payload)[3 + q]? ≠ some x)
    (hin : s.input = feeds ((wireV1 dir c payload).set (3 + q) x) ++ rest) :
    CountedInvalid s rest (wireV1 dir c payload).length := by
  have hn := toNat_loByte_lenHalf hlen
  have hlt : q < (loByte (lenHalf payload) :: c :: payload).length := by simp; omega
  have hchk := xor8_set_ne hlt ((getElem?_middle (pre := [0x24, 0x4D, dir]) hlt).symm.trans_ne hx)
  rcases hq with rfl | ⟨hge, -⟩
  · obtain ⟨w, hbs, hw⟩ := advancesBy_frameV1 s dir (c := x) (hn ▸ hlen) hn.symm
    exact countedInvalid_of_advances hidle hlt hbs hw (.inl rfl) hchk hin
  · obtain ⟨k, rfl⟩ := Nat.exists_eq_add_of_le' hge
    obtain ⟨w, hbs, hw⟩ := advancesBy_frameV1 s dir (c := c) (payload := payload.set k x) (hn ▸ hlen)
      (by rw [List.length_set, hn])
    exact countedInvalid_of_advances hidle hlt hbs hw (.inl rfl) hchk hin

theorem countedInvalid_wireV1Jumbo {c : Byte} (hlen : payload.length ≤ 65535)
    (hzero : payload ≠ [] ∨ s.cfg.jumboZero = .directChecksum) (hq : q = 1 ∨ 4 ≤ q ∧ q < 4 + payload.length)
    (hx : (wireV1Jumbo dir c payload)[3 + q]? ≠ some x)
    (hin : s.input = feeds ((wireV1Jumbo dir c payload).set (3 + q) x) ++ rest) :
    CountedInvalid s rest (wireV1Jumbo dir c payload).length := by
  have hn := length_eq_toNat_joinHi hlen
  have hlt : q < (0xFF :: c :: loByte (lenHalf payload) :: hiByte (lenHalf payload) :: payload).length := by
    simp; omega
  have hchk := xor8_set_ne hlt ((getElem?_middle (pre := [0x24, 0x4D, dir]) hlt).symm.trans_ne hx)
  rcases hq with rfl | ⟨hge, -⟩
  · obtain ⟨w, hbs, hw⟩ := advancesBy_frameV1Jumbo s dir (c := x) hn hzero
    exact countedInvalid_of_advances hidle hlt hbs hw (.inl rfl) hchk hin
  · obtain ⟨k, rfl⟩ := Nat.exists_eq_add_of_le' hge
    obtain ⟨w, hbs, hw⟩ := advancesBy_frameV1Jumbo s dir (c := c) (payload := payload.set k x)
      ((List.length_set ..).trans hn) (hzero.imp_left fun hne => by simpa using hne)
    exact countedInvalid_of_advances hidle hlt hbs hw (.inl rfl) hchk hin

theorem countedInvalid_wireV2 {flag : Byte} {code : Half} (hlen : payload.length ≤ 65535)
    (hq : q = 0 ∨ q = 1 ∨ 4 ≤ q ∧ q < 4 + payload.length) (hx : (wireV2 dir flag code payload)[4 + q]? ≠ some x)
    (hin : s.input = feeds ((wireV2 dir flag code payload).set (4 + q) x) ++ rest) :
    CountedInvalid s rest (wireV2 dir flag code payload).length := by
  have hn := length_eq_toNat_joinHi hlen
  have hlt :
      q < (loByte code :: hiByte code :: loByte (lenHalf payload) :: hiByte (lenHalf payload) :: payload).length := by
    simp; omega
  have hchk := crc8_set_ne (l := 0 :: _ :: _) (q := q + 1) (Nat.succ_lt_succ hlt)
    ((getElem?_middle (pre := [0x24, 0x58, dir, flag]) hlt).symm.trans_ne hx) 0
  rcases hq with rfl | rfl | ⟨hge, -⟩
  · obtain ⟨w, hbs, hw⟩ := advancesBy_frameV2 s dir (flag := flag) (clo := x) (chi := hiByte code) hn
    exact countedInvalid_of_advances hidle hlt hbs hw (.inr rfl) hchk hin
  · obtain ⟨w, hbs, hw⟩ := advancesBy_frameV2 s dir (flag := flag) (clo := loByte code) (chi := x) hn
    exact countedInvalid_of_advances hidle hlt hbs hw (.inr rfl) hchk hin
  · obtain ⟨k, rfl⟩ := Nat.exists_eq_add_of_le' hge
    obtain ⟨w, hbs, hw⟩ := advancesBy_frameV2 s dir (flag := flag) (clo := loByte code) (chi := hiByte code)
      (payload := payload.set k x) ((List.length_set ..).trans hn)
    exact countedInvalid_of_advances hidle hlt hbs hw (.inr rfl) hchk hin

end

/-! ### The jumbo frame that never ends -/

/-- In `PAYLOAD_V1` with length 0, ABSORB_FOREVER absorbs every byte (42_decoder.md R164). -/
theorem advancesBy_forever {s : State} (h : s.cfg.jumboZero = .absorbForever) {w : Fields}
    (hst : w.state = DecState.payloadV1) (hlen : w.lenExp = 0) (bs : List Byte) : AdvancesBy s bs w w := by
  induction bs with
  | nil => exact .nil
  | cons b bs ih =>
    refine .cons (fun inp => ?_) ih
    exact (execFeed_payloadV1 b (s.inFrame inp w) hst).trans
      (execPayloadV1_absorbForever (s := s.inFrame inp w) hlen h b)

/-- The header of a jumbo frame of length 0 leads there. -/
theorem afterJumboHeader_forever (dir c : Byte) :
    (Fields.afterJumboHeader .absorbForever dir c 0 0).state = DecState.payloadV1 ∧
      (Fields.afterJumboHeader .absorbForever dir c 0 0).lenExp = 0 := ⟨rfl, rfl⟩

end Sys2Proof.Machine

open Sys2Proof Sys2Proof.Machine

/-- Settles O58: each wire format is its header, its payload and the checksum the decoder has accumulated. -/
theorem wireFramesAreDelivered : Obligations.WireFramesAreDelivered := by
  rintro s rest dir flag c code payload frame fr hidle hin
    (⟨rfl, hlen, rfl⟩ | ⟨rfl, hlen, hzero, rfl⟩ | ⟨rfl, hlen, rfl⟩)
  · exact deliveredAtLast_wireV1 hidle hlen hin
  · exact deliveredAtLast_wireV1Jumbo hidle hlen hzero hin
  · exact deliveredAtLast_wireV2 hidle hlen hin

/-- Settles O59: the encoder's frames are wire frames, and a V1 code is the byte it is sent as. -/
theorem encoderRoundTrip : Obligations.EncoderRoundTrip := by
  have hweaken {s : State} {rest bs fr} (h : DeliveredAtLast s rest bs fr) :
      runSteps bs.length s = .next (delivered s rest fr) ∧
        ∀ k, 0 < k → k < bs.length → ∃ u, runSteps k s = .next u ∧ u.out = [] := by
    refine ⟨h.1, fun k hpos hk => ?_⟩
    obtain ⟨u, hu, hout, -⟩ := h.2 k hpos hk
    exact ⟨u, hu, hout⟩
  have hV2 {s : State} {rest code payload bs} (hidle : Idle s) (hin : s.input = feeds bs ++ rest)
      (hbs : frameV2 code payload = .ok bs) : DeliveredAtLast s rest bs ⟨.v2, code, payload, true⟩ := by
    obtain ⟨hlen, rfl⟩ := frameV2_eq_ok hbs
    exact deliveredAtLast_wireV2 hidle hlen hin
  refine fun s rest code payload bs hidle hin => ⟨fun hbs => hweaken ?_, fun hbs => hweaken (hV2 hidle hin hbs)⟩
  rcases le_or_gt code.toNat 254 with hc | hc
  · rw [frameOf_of_le hc] at hbs
    obtain ⟨-, hlen, rfl⟩ := frameV1_eq_ok hbs
    rw [if_pos hc]
    have hframe := deliveredAtLast_wireV1 hidle hlen hin
    rwa [zext16_loByte_of_le hc] at hframe
  · rw [frameOf_of_gt hc] at hbs
    rw [if_neg (Nat.not_le.mpr hc)]
    exact hV2 hidle hin hbs

/-- Settles O60: the decoder accumulates the checksum of the bytes it was fed, which one changed byte makes another than
the checksum byte. -/
theorem corruptedFrameCountedOnce : Obligations.CorruptedFrameCountedOnce := by
  rintro s rest dir flag c x code payload frame p hidle hin hx
    (⟨rfl, hlen, hp, hp'⟩ | ⟨rfl, hlen, hzero, hp⟩ | ⟨rfl, hlen, hp⟩)
  · obtain ⟨q, rfl⟩ : ∃ q, p = 3 + q := ⟨p - 3, by omega⟩
    exact countedInvalid_wireV1 hidle hlen (by omega) hx hin
  · obtain ⟨q, rfl⟩ : ∃ q, p = 3 + q := ⟨p - 3, by omega⟩
    exact countedInvalid_wireV1Jumbo hidle hlen hzero (by omega) hx hin
  · obtain ⟨q, rfl⟩ : ∃ q, p = 4 + q := ⟨p - 4, by omega⟩
    exact countedInvalid_wireV2 hidle hlen (by omega) hx hin

/-- Settles O57: the hung decoder's fields are a fixed point of every byte, and the header reaches them. -/
theorem absorbForeverHangs : Obligations.AbsorbForeverHangs := by
  refine fun s bs rest hforever => ⟨fun hst hlen hne hin => ?_, fun dir c hidle hin => ?_⟩
  · exact ((advancesBy_forever hforever (w := s.fields) hst hlen bs).run hne hin).1
  · obtain ⟨hst, hlen⟩ := afterJumboHeader_forever dir c
    have hheader := advancesBy_jumboHeader s dir c 0 0
    rw [hforever] at hheader
    have hall := hheader.append (advancesBy_forever hforever hst hlen bs)
    obtain ⟨hrun, hquiet⟩ := AdvancesBy.run (hidle.fields_eq ▸ hall) (by simp) hin
    rw [List.length_append] at hrun hquiet
    exact ⟨⟨_, hrun, rfl, rfl, rfl, rfl, rfl, rfl, rfl⟩, fun k hpos hk => hquiet k hpos (Nat.lt_succ_of_le hk)⟩

end
